-- ==== Sys2Proof/Word.lean ====
section
/-! DEFINITION. The widths the block moves (20_memory.md R54) and the widths of its scratch and frames
(10_state.md R29, 30_encoding.md R72). -/

namespace Sys2Proof

/-- A byte of host memory, and one word of an 8-bit transfer. -/
abbrev Byte := BitVec 8

/-- One word of a native Option 1 transfer, format W9 (R71). -/
abbrev Word9 := BitVec 9

/-- One word of an Option 3 16-bit data phase, format O3W (R78). -/
abbrev Word16 := BitVec 16

/-- The emulated encoder's 64-bit scratch value ACC (R29, R141). -/
abbrev Acc := BitVec 64

/-- The 72-bit value G of a full emulated frame (R72). -/
abbrev Frame := BitVec 72

/-- A set of byte values as a membership map: bit v is 1 when v is a member (R23). -/
abbrev ByteSet := BitVec 256

end Sys2Proof
end

