-- ==== Sys2Proof/Syntax.lean ====
section
/-! DEFINITION. The operations: one constructor of `Instr` per row of spec/opcode_table.json, and the ports
whose formats the rows belong to (30_encoding.md R83). -/

namespace Sys2Proof

/-- The levels of the Option 3 select line (10_state.md R31). -/
inductive Level where
  | cmd
  | data
deriving DecidableEq, Repr, Inhabited

/-- Where an encoded operation stands. The rows' patterns overlap, and it is the port, the length of the transfer or the
select level that tells the formats apart (R83). -/
inductive Port where
  /-- the host port: format HOSTSEL11 (R84) -/
  | hostSel
  /-- the classifier's operand: format CMD8 (R84) -/
  | cmd8
  /-- a native 9-bit transfer: format W9 (R71) -/
  | w9
  /-- an emulated transfer: formats E72, E72C (9 bytes) and E64-k (8 bytes) (R72 to R74) -/
  | e8
  /-- an 8-bit Option 3 transfer under a select level: format O3B (R77) -/
  | o3b (level : Level)
  /-- a byte stream given straight to the emulated encoder E8.ENC, with its control bit (42_option1_emulated.md R140,
  R148; log 29): the bytes are the stream itself and no row of the table, so nothing decodes here -/
  | e8Stream (c : Bool)
  /-- a 16-bit Option 3 transfer: format O3W (R78) -/
  | o3w
  /-- the raw byte of a normal read: format RD (R79) -/
  | rd
  /-- the raw bytes of a dummy-clock read: formats RDDC-3 and RDDC-4 (R80) -/
  | rddc
deriving DecidableEq, Repr

/-- One constructor per row of spec/opcode_table.json. Host operands that the selector does not encode (R81) are in
`State.args`. -/
inductive Instr where
  | configure
  | sendCommand (cmd : Byte)
  | readCommand (cmd : Byte)
  | isDisplayOn
  | reservedOp (op : BitVec 3) (c : Byte)
  | classify (cmd : Byte)
  | n9Cmd (c : Byte)
  | n9Data (d : Byte)
  | e8Cmd (c : Byte)
  | e8Full (b0 b1 b2 b3 b4 b5 b6 b7 : Byte)
  | e8Part1 (b0 : Byte)
  | e8Part2 (b0 b1 : Byte)
  | e8Part3 (b0 b1 b2 : Byte)
  | e8Part4 (b0 b1 b2 b3 : Byte)
  | e8Part5 (b0 b1 b2 b3 b4 : Byte)
  | e8Part6 (b0 b1 b2 b3 b4 b5 : Byte)
  | e8Part7 (b0 b1 b2 b3 b4 b5 b6 : Byte)
  | o3Cmd (c : Byte)
  | o3Data8 (d : Byte)
  | o3Data16 (d : Word16)
  | o3Rd8 (r : Byte)
  | o3Rddc3 (x : BitVec 1) (a b c : Byte) (y : BitVec 7)
  | o3Rddc4 (x : BitVec 1) (a b c d : Byte) (y : BitVec 7)
deriving DecidableEq, Repr

end Sys2Proof
end

