-- ==== Sys2Proof/WellFormed.lean ====
section
/-! DEFINITION. Which terms of `Instr` the encodings admit. Operand types already have the widths of the fields; the one
check left is the fixed bit of the reserved selectors. -/

namespace Sys2Proof

/-- A reserved selector is one of 100..111: its top bit is 1 (30_encoding.md R84, pattern `1oocccccccc`). Every other
row's fields take every value of their width. -/
def Instr.wellFormed : Instr → Bool
  | .configure => true
  | .sendCommand _ => true
  | .readCommand _ => true
  | .isDisplayOn => true
  | .reservedOp op _ => op.getLsbD 2
  | .classify _ => true
  | .n9Cmd _ => true
  | .n9Data _ => true
  | .e8Cmd _ => true
  | .e8Full _ _ _ _ _ _ _ _ => true
  | .e8Part1 _ => true
  | .e8Part2 _ _ => true
  | .e8Part3 _ _ _ => true
  | .e8Part4 _ _ _ _ => true
  | .e8Part5 _ _ _ _ _ => true
  | .e8Part6 _ _ _ _ _ _ => true
  | .e8Part7 _ _ _ _ _ _ _ => true
  | .o3Cmd _ => true
  | .o3Data8 _ => true
  | .o3Data16 _ => true
  | .o3Rd8 _ => true
  | .o3Rddc3 _ _ _ _ _ => true
  | .o3Rddc4 _ _ _ _ _ _ => true

end Sys2Proof
end

