-- ==== Sys2Proof/Decode.lean ====
section
/-! DEFINITION. The decoder of every row of spec/opcode_table.json, total on any bytes at any port and rejecting by name,
then the encoder. Bytes stand in the order they go onto the wire, each value's most significant byte first
(20_memory.md R58, R59; log 19). -/

namespace Sys2Proof

/-- Why bytes at a port are no row of the table. -/
inductive DecodeError where
  /-- no format of the port has this many bytes -/
  | wrongLength
  /-- a bit above the value's width is set in its 2-byte container (R59) -/
  | containerBits
  /-- the selector is in no row of R84: a CONFIGURE or IS_DISPLAY_ON op with a command byte that is not 0 -/
  | noSelector
  /-- a 9-byte frame that is neither E72 (every control bit 1) nor E72C (bits 71:8 zero) (R72, R73) -/
  | mixedFrame
  /-- an 8-byte frame whose first word is no data word (R74) -/
  | noDataWord
  /-- an 8-byte frame with a 1 after its data words (R74) -/
  | fillerBits
deriving DecidableEq, Repr

/-- The 9-bit word `{C, B}` (R71): control bit on top, C = 0 for a command and 1 for data (R70). -/
def word9 (c : Bool) (b : Byte) : Word9 := BitVec.ofBool c ++ b

/-- The `k` bytes of a value, most significant first. -/
def bytesOf {w : Nat} (k : Nat) (v : BitVec w) : List Byte :=
  (List.range k).map fun j => v.extractLsb' (8 * (k - 1 - j)) 8

/-- Control bit of word slot `i` of a 9-byte frame: `G[71−9i]` (R72). -/
def frameCtl (g : Frame) (i : Nat) : Bool := g.getLsbD (71 - 9 * i)

/-- Byte of word slot `i` of a 9-byte frame: `G[70−9i : 63−9i]` (R72). -/
def frameByte (g : Frame) (i : Nat) : Byte := g.extractLsb' (63 - 9 * i) 8

/-- Control bit of word slot `i` of an 8-byte frame: `ACC[63−9i]` (R72). -/
def accCtl (a : Acc) (i : Nat) : Bool := a.getLsbD (63 - 9 * i)

/-- Byte of word slot `i ≤ 6` of an 8-byte frame: `ACC[62−9i : 55−9i]` (R72). -/
def accByte (a : Acc) (i : Nat) : Byte := a.extractLsb' (55 - 9 * i) 8

/-- Number of leading word slots 0..6 of an 8-byte frame with C = 1: the k of E64-k (R83). -/
def leadingWords (a : Acc) : Nat := ((List.range 7).takeWhile (accCtl a)).length

/-- The host selector `{op[2:0], cmd[7:0]}` (R84), 11 bits in a 2-byte container. -/
def decodeSelector (hi lo : Byte) : Except DecodeError Instr :=
  if 8 ≤ hi.toNat then .error .containerBits
  else if hi = 0 then (if lo = 0 then .ok .configure else .error .noSelector)
  else if hi = 1 then .ok (.sendCommand lo)
  else if hi = 2 then .ok (.readCommand lo)
  else if hi = 3 then (if lo = 0 then .ok .isDisplayOn else .error .noSelector)
  else .ok (.reservedOp (hi.extractLsb' 0 3) lo)

/-- A native 9-bit word: bit 8 is the control bit (R71, R83: mask 0x100). -/
def decodeW9 (hi lo : Byte) : Except DecodeError Instr :=
  if hi = 0 then .ok (.n9Cmd lo)
  else if hi = 1 then .ok (.n9Data lo)
  else .error .containerBits

/-- A 9-byte frame: E72 when all 8 control bits are 1, E72C when bits 71:8 are 0 (R72, R73). -/
def decodeFrame9 (g : Frame) : Except DecodeError Instr :=
  if (List.range 8).all (frameCtl g) then
    .ok (.e8Full (frameByte g 0) (frameByte g 1) (frameByte g 2) (frameByte g 3)
      (frameByte g 4) (frameByte g 5) (frameByte g 6) (frameByte g 7))
  else if g.extractLsb' 8 64 = 0 then .ok (.e8Cmd (g.extractLsb' 0 8))
  else .error .mixedFrame

/-- An 8-byte frame: E64-k, k leading data words and then only zeros (R74). -/
def decodeFrame8 (a : Acc) : Except DecodeError Instr :=
  if a <<< (9 * leadingWords a) ≠ 0 then .error (if leadingWords a = 0 then .noDataWord else .fillerBits)
  else match leadingWords a with
    | 1 => .ok (.e8Part1 (accByte a 0))
    | 2 => .ok (.e8Part2 (accByte a 0) (accByte a 1))
    | 3 => .ok (.e8Part3 (accByte a 0) (accByte a 1) (accByte a 2))
    | 4 => .ok (.e8Part4 (accByte a 0) (accByte a 1) (accByte a 2) (accByte a 3))
    | 5 => .ok (.e8Part5 (accByte a 0) (accByte a 1) (accByte a 2) (accByte a 3) (accByte a 4))
    | 6 => .ok (.e8Part6 (accByte a 0) (accByte a 1) (accByte a 2) (accByte a 3) (accByte a 4) (accByte a 5))
    | 7 => .ok (.e8Part7 (accByte a 0) (accByte a 1) (accByte a 2) (accByte a 3) (accByte a 4) (accByte a 5)
        (accByte a 6))
    | _ => .error .noDataWord

/-- RDDC-3, 32 bits: dummy bit 31, out[0] at 30:23, out[1] at 22:15, out[2] at 14:7, ignored 6:0 (R80). -/
def decodeRddc3 (v : BitVec 32) : Instr :=
  .o3Rddc3 (v.extractLsb' 31 1) (v.extractLsb' 23 8) (v.extractLsb' 15 8) (v.extractLsb' 7 8) (v.extractLsb' 0 7)

/-- RDDC-4, 40 bits: dummy bit 39, out[0] at 38:31, ..., out[3] at 14:7, ignored 6:0 (R80). -/
def decodeRddc4 (v : BitVec 40) : Instr :=
  .o3Rddc4 (v.extractLsb' 39 1) (v.extractLsb' 31 8) (v.extractLsb' 23 8) (v.extractLsb' 15 8)
    (v.extractLsb' 7 8) (v.extractLsb' 0 7)

/-- The operation that bytes at a port stand for. -/
def decode : Port → List Byte → Except DecodeError Instr
  | .hostSel, [hi, lo] => decodeSelector hi lo
  | .cmd8, [c] => .ok (.classify c)
  | .w9, [hi, lo] => decodeW9 hi lo
  | .e8, [f0, f1, f2, f3, f4, f5, f6, f7, f8] => decodeFrame9 (f0 ++ f1 ++ f2 ++ f3 ++ f4 ++ f5 ++ f6 ++ f7 ++ f8)
  | .e8, [f0, f1, f2, f3, f4, f5, f6, f7] => decodeFrame8 (f0 ++ f1 ++ f2 ++ f3 ++ f4 ++ f5 ++ f6 ++ f7)
  | .o3b .cmd, [c] => .ok (.o3Cmd c)
  | .o3b .data, [d] => .ok (.o3Data8 d)
  | .o3w, [hi, lo] => .ok (.o3Data16 (hi ++ lo))
  | .rd, [r] => .ok (.o3Rd8 r)
  | .rddc, [r0, r1, r2, r3] => .ok (decodeRddc3 (r0 ++ r1 ++ r2 ++ r3))
  | .rddc, [r0, r1, r2, r3, r4] => .ok (decodeRddc4 (r0 ++ r1 ++ r2 ++ r3 ++ r4))
  | _, _ => .error .wrongLength

/-! The encoder, from the same tables. -/

/-- The port whose format an operation's row belongs to. -/
def Instr.port : Instr → Port
  | .configure | .sendCommand _ | .readCommand _ | .isDisplayOn | .reservedOp _ _ => .hostSel
  | .classify _ => .cmd8
  | .n9Cmd _ | .n9Data _ => .w9
  | .e8Cmd _ | .e8Full _ _ _ _ _ _ _ _ => .e8
  | .e8Part1 _ | .e8Part2 _ _ | .e8Part3 _ _ _ | .e8Part4 _ _ _ _ => .e8
  | .e8Part5 _ _ _ _ _ | .e8Part6 _ _ _ _ _ _ | .e8Part7 _ _ _ _ _ _ _ => .e8
  | .o3Cmd _ => .o3b .cmd
  | .o3Data8 _ => .o3b .data
  | .o3Data16 _ => .o3w
  | .o3Rd8 _ => .rd
  | .o3Rddc3 _ _ _ _ _ | .o3Rddc4 _ _ _ _ _ _ => .rddc

/-- A data word slot of an emulated frame: C = 1 and the byte (R72). -/
def slot (b : Byte) : Word9 := 1#1 ++ b

/-- The bytes of an operation, each pattern written out as the table has it. -/
def encode : Instr → List Byte
  | .configure => [0x00, 0x00]
  | .sendCommand cmd => [0x01, cmd]
  | .readCommand cmd => [0x02, cmd]
  | .isDisplayOn => [0x03, 0x00]
  | .reservedOp op c => [0#5 ++ op, c]
  | .classify cmd => [cmd]
  | .n9Cmd c => [0x00, c]
  | .n9Data d => [0x01, d]
  | .e8Cmd c => bytesOf 9 (0#64 ++ c)
  | .e8Full b0 b1 b2 b3 b4 b5 b6 b7 =>
    bytesOf 9 (slot b0 ++ slot b1 ++ slot b2 ++ slot b3 ++ slot b4 ++ slot b5 ++ slot b6 ++ slot b7)
  | .e8Part1 b0 => bytesOf 8 (slot b0 ++ 0#55)
  | .e8Part2 b0 b1 => bytesOf 8 (slot b0 ++ slot b1 ++ 0#46)
  | .e8Part3 b0 b1 b2 => bytesOf 8 (slot b0 ++ slot b1 ++ slot b2 ++ 0#37)
  | .e8Part4 b0 b1 b2 b3 => bytesOf 8 (slot b0 ++ slot b1 ++ slot b2 ++ slot b3 ++ 0#28)
  | .e8Part5 b0 b1 b2 b3 b4 => bytesOf 8 (slot b0 ++ slot b1 ++ slot b2 ++ slot b3 ++ slot b4 ++ 0#19)
  | .e8Part6 b0 b1 b2 b3 b4 b5 =>
    bytesOf 8 (slot b0 ++ slot b1 ++ slot b2 ++ slot b3 ++ slot b4 ++ slot b5 ++ 0#10)
  | .e8Part7 b0 b1 b2 b3 b4 b5 b6 =>
    bytesOf 8 (slot b0 ++ slot b1 ++ slot b2 ++ slot b3 ++ slot b4 ++ slot b5 ++ slot b6 ++ 0#1)
  | .o3Cmd c => [c]
  | .o3Data8 d => [d]
  | .o3Data16 d => bytesOf 2 d
  | .o3Rd8 r => [r]
  | .o3Rddc3 x a b c y => bytesOf 4 (x ++ a ++ b ++ c ++ y)
  | .o3Rddc4 x a b c d y => bytesOf 5 (x ++ a ++ b ++ c ++ d ++ y)

/-! The table's numbering of bits, for the host. -/

/-- The port and the bytes of a table word of `nbits` bits. Rows of different ports share widths (log 16): 16 bits are
read as a host selector where one of its rows has the word, else as a 9-bit word where it fits one, else as a 16-bit
data word; 8 bits are read as CLASSIFY's operand. -/
def tableBytes (nbits w : Nat) : Option (Port × List Byte) :=
  match nbits with
  | 8 => some (.cmd8, bytesOf 1 (BitVec.ofNat 8 w))
  | 9 => some (.w9, bytesOf 2 (BitVec.ofNat 16 w))
  | 11 => some (.hostSel, bytesOf 2 (BitVec.ofNat 16 w))
  | 16 =>
    let bs := bytesOf 2 (BitVec.ofNat 16 w)
    match decode .hostSel bs with
    | .ok _ => some (.hostSel, bs)
    | .error _ => if w < 512 then some (.w9, bs) else some (.o3w, bs)
  | 32 => some (.rddc, bytesOf 4 (BitVec.ofNat 32 w))
  | 40 => some (.rddc, bytesOf 5 (BitVec.ofNat 40 w))
  | 64 => some (.e8, bytesOf 8 (BitVec.ofNat 64 w))
  | 72 => some (.e8, bytesOf 9 (BitVec.ofNat 72 w))
  | _ => none

/-- The operation the decoder reads from a table word, or none where it refuses. -/
def decodeTableWord (nbits w : Nat) : Option Instr :=
  match tableBytes nbits w with
  | none => none
  | some (p, bs) =>
    match decode p bs with
    | .ok i => some i
    | .error _ => none

end Sys2Proof
end

