-- ==== Sys2Proof/Config.lean ====
section
/-! DEFINITION. What an implementation fixes (00_scope.md R6), and the free values: inputs under no law
(10_state.md R32, 93_implementation_defined.md U1 to U7). A free value is a constant with no body, so no
proof can know it. -/

namespace Sys2Proof

/-- Byte order of the execution platform, `P_HOST_ENDIAN` (R6). -/
inductive Endian where
  | le
  | be
deriving DecidableEq, Repr, Inhabited

/-- `P_DCCMDS`: the two legacy commands of the dummy-clock protocol, two distinct byte values (R6, 92 D48). The field
defaults are there only so that Lean sees that such a pair exists (`Config.params` has no body and shows none of them);
no step and no statement uses them. -/
structure DcCmds where
  first : Byte := 0
  second : Byte := ~~~first
  distinct : (first == second) = false := by decide
deriving DecidableEq, Repr, Inhabited

/-- The OPEN parameters of R6 (92_eei_decisions.md D47 to D57). The model holds for every value of them. -/
structure Params where
  /-- `P_READ_CEIL_HZ` -/
  readCeilHz : Nat
  /-- `BUS_MAX_HZ`, a property of the transport -/
  busMaxHz : Nat
  /-- `P_DCCMDS` -/
  dcCmds : DcCmds
  /-- `P_MEMWRITE_CMD` -/
  memWriteCmd : Byte
  /-- `P_POWER_MODE_CMD` -/
  powerModeCmd : Byte
  /-- `P_PM_MASK` -/
  pmMask : Byte
  /-- `P_PM_EXPECT` -/
  pmExpect : Byte
  /-- `P_HOST_ENDIAN` -/
  hostEndian : Endian
  /-- `P_READSET_SENTINEL` -/
  readsetSentinel : Byte
  /-- `P_ADDR_W` -/
  addrW : Nat
  /-- `P_LEN_W` -/
  lenW : Nat
deriving DecidableEq, Repr, Inhabited

/-- `P_READSET_MAX` (R6): the one value of the list that the source fixes. -/
def Config.readsetMax : Nat := 255

/-- The parameter U7: the type of the transport's error values, given as the codes that its values have. It has no body,
so nothing is known of the type: how many values it has, which codes they have, or whether two indexes give one value. -/
opaque Config.errorCode : Nat → Nat

/-- The opaque type of a transport's error value e (60_exceptions.md R274, 92_eei_decisions.md D37): the values that the
parameter `Config.errorCode` gives. Equality is the only operation: the block passes e on, and `code` is there only so that
State is plain data that can be compared and printed; no definition of the model reads it. DESIGN CHOICE, safe (log 12). -/
structure TransportError where
  code : Nat
  isCode : ∃ k, Config.errorCode k = code
deriving DecidableEq, Repr

/-- The error value at index k of the parameter type. -/
def TransportError.ofIndex (k : Nat) : TransportError := ⟨Config.errorCode k, k, rfl⟩

/-- What the transport does with one `Xfer` (10_state.md R32). -/
inductive XferAnswer where
  /-- it completes; `raw` are the words a read receives -/
  | ok (raw : List Byte)
  /-- it fails with e; the first `reached` words of its payload reached the bus (20_memory.md R65) -/
  | err (e : TransportError) (reached : Nat)
  /-- it never returns (60_exceptions.md R280) -/
  | never
deriving DecidableEq, Repr, Inhabited

/-- The parameters of the instance that `State.reset` creates. No value of them is assumed (log 5). -/
opaque Config.params : Params

/-- The k-th answer of `Supports(9)` where no answer has been decided (log 4). -/
opaque Config.freeSupports9 : Nat → Bool
/-- The k-th answer of `Supports(16)` where none has been decided. -/
opaque Config.freeSupports16 : Nat → Bool
/-- The k-th answer of `MaxXfer()` where none has been decided. -/
opaque Config.freeMaxXfer : Nat → Nat
/-- The k-th outcome of `Alloc()` where none has been decided. -/
opaque Config.freeAlloc : Nat → Bool
/-- The k-th answer of `Xfer` where none has been decided. -/
opaque Config.freeXfer : Nat → XferAnswer
/-- The i-th raw byte of the k-th transfer, where its answer does not list one (log 15). -/
opaque Config.freeRaw : Nat → Nat → Byte
/-- The i-th destination byte after the k-th failed read: any value (20_memory.md R57, log 10). -/
opaque Config.freeDst : Nat → Nat → Byte

end Sys2Proof
end

