-- ==== Sys2Proof/Machine/State.lean ====
section
/-! DEFINITION. Everything the spec gives the block (10_state.md), the host's and the transport's side of its two ports,
and the record of what it did (R33), as plain data; the reasons a step can stop; and the state after reset (70 R300). -/

namespace Sys2Proof.Machine

/-- `PHASE` (R21). -/
inductive Phase where
  | unconfigured
  | configured
  | ready
deriving DecidableEq, Repr, Inhabited

/-- `VARIANT` (R22). -/
inductive Variant where
  | option1
  | option3
deriving DecidableEq, Repr, Inhabited

/-- `ROUTE` (R25). -/
inductive Route where
  | n9
  | e8
  | o3
deriving DecidableEq, Repr, Inhabited

/-- `SEQ`, the sequencer's states in the order a call passes them (R30). -/
inductive Seq where
  | idle
  | check
  | alloc
  | cmdPhase
  | dataPhase
  | readPhase
  | decode
  | done
deriving DecidableEq, Repr, Inhabited

/-- `DIR` of the Transfer Descriptor (R28). -/
inductive Dir where
  | w
  | r
deriving DecidableEq, Repr, Inhabited

/-- Speed of a transfer (R32, 44_option3_read.md R207). -/
inductive Speed where
  | default
  | read
deriving DecidableEq, Repr, Inhabited

/-- The words of one write transfer, at 8, 9 or 16 bits per word (R32). -/
inductive Words where
  | w8 (ws : List Byte)
  | w9 (ws : List Word9)
  | w16 (ws : List Word16)
deriving DecidableEq, Repr, Inhabited

/-- Payload of an `Xfer`: a word list for W, a count of 8-bit words for R (00_scope.md R9). -/
inductive Payload where
  | write (ws : Words)
  | read (count : Nat)
deriving DecidableEq, Repr, Inhabited

/-- The answer recorded with a transfer: ok with the words a read received, or the error and how many words of the
payload reached the bus (R33, 20_memory.md R65). -/
inductive Reply where
  | ok (got : List Byte)
  | err (e : TransportError) (reached : Nat)
deriving DecidableEq, Repr, Inhabited

/-- A transport event (R33). -/
inductive Event where
  | sel (level : Level)
  | xfer (speed : Speed) (payload : Payload) (reply : Reply)
deriving DecidableEq, Repr, Inhabited

/-- The four error kinds (60_exceptions.md R270). -/
inductive ErrKind where
  | invalidArgument
  | unsupported
  | resourceExhausted
  | busError (e : TransportError)
deriving DecidableEq, Repr, Inhabited

/-- The reasons of a `Refused` outcome (60_exceptions.md R270). -/
inductive Reason where
  | notReady
  | reconfigure
  | badReadSet
  | addrRange
  | cmdLength
  | oddLength16
  | zeroRead
  | reservedOp
deriving DecidableEq, Repr, Inhabited

/-- The outcome of a call (00_scope.md R10): exactly one of three, `Refused` distinct from `err`. -/
inductive CallResult where
  | ok (value : Option Bool)
  | err (kind : ErrKind)
  | refused (reason : Reason)
deriving DecidableEq, Repr, Inhabited

/-- Host memory: cells with strictly rising addresses, none equal to what an unlisted address reads as. -/
abbrev Memory := List Host.Cell

/-- The operands of a host request that its selector does not encode (30_encoding.md R81). -/
structure Args where
  /-- `select_present` -/
  selectPresent : Bool
  /-- `readset`, absent or a set -/
  readset : Option ByteSet
  /-- `src` or `dst` -/
  addr : Nat
  /-- `n` -/
  len : Nat
deriving DecidableEq, Repr, Inhabited

/-- One request of a program: what the host writes into its own memory before it (the host's buffers are its own,
20_memory.md R63), then the port, the bytes and the operands. -/
structure Request where
  stores : List Host.Cell
  port : Port
  bytes : List Byte
  args : Args
deriving DecidableEq, Repr

/-- Answers of one transport or allocator query: those already decided, then free values from index `count` on. -/
structure Feed (α : Type) where
  script : List α
  count : Nat
deriving DecidableEq, Repr, Inhabited

/-- The outside world's answers (R32, 60_exceptions.md R276); `havocs` counts the failed reads (20_memory.md R57). -/
structure Io where
  supports9 : Feed Bool
  supports16 : Feed Bool
  maxXfer : Feed Nat
  alloc : Feed Bool
  xfer : Feed XferAnswer
  havocs : Nat
deriving DecidableEq, Repr, Inhabited

/-- The per-call state (R25 to R29, 45_dispatcher.md R238). It is created by a call and discarded at its end (R20). -/
structure Call where
  /-- `ROUTE` (R25) -/
  route : Route
  /-- `CAP9` (R26) -/
  cap9 : Bool
  /-- `CAP16` (R26) -/
  cap16 : Bool
  /-- `T` (R26) -/
  t : Nat
  /-- `SWAP` (R27) -/
  swap : Bool
  /-- Transfer Descriptor `DIR` (R28) -/
  dir : Dir
  /-- Transfer Descriptor `BPW` -/
  bpw : Nat
  /-- Transfer Descriptor `SRC` -/
  src : Nat
  /-- Transfer Descriptor `SRCLEN` -/
  srcLen : Nat
  /-- Transfer Descriptor `CHUNK` -/
  chunk : Nat
  /-- `REM` (R28) -/
  rem : Nat
  /-- `POS` (R28) -/
  pos : Nat
  /-- whether the call's scratch is allocated (R29, R66) -/
  allocated : Bool
  /-- `ACC` (R29) -/
  acc : Acc
  /-- `SCRATCH` (R29) -/
  scratch : Words
  /-- `RAW` (R29) -/
  raw : List Byte
  /-- `PMBUF` (R238) -/
  pmbuf : Byte
deriving DecidableEq, Repr, Inhabited

/-- The per-call state when no call is in progress: nothing allocated, nothing held. DESIGN CHOICE for the values
(log 8): no rule reads them there. -/
def Call.idle : Call where
  route := .n9
  cap9 := false
  cap16 := false
  t := 0
  swap := false
  dir := .w
  bpw := 8
  src := 0
  srcLen := 0
  chunk := 0
  rem := 0
  pos := 0
  allocated := false
  acc := 0
  scratch := .w8 []
  raw := []
  pmbuf := 0

/-- The whole machine. -/
structure State where
  /-- the implementation parameters, arguments of the model (00_scope.md R6) -/
  params : Params
  /-- `PHASE` (R21) -/
  phase : Phase
  /-- `VARIANT` (R22) -/
  variant : Variant
  /-- `READSET_VALID` (R23, R24) -/
  readsetValid : Bool
  /-- `READSET_MAP` (R23) -/
  readsetMap : ByteSet
  /-- `SEL` (R31) -/
  sel : Level
  /-- `SEQ` (R30) -/
  seq : Seq
  /-- the SEQ states of the last call, oldest first (the model's own) -/
  trail : List Seq
  /-- the per-call state (R25 to R29) -/
  call : Call
  /-- host memory (20_memory.md R50) -/
  mem : Memory
  /-- the host's requests not yet made, next first (the model's own) -/
  pending : List Request
  /-- operands of the request being made (R81) -/
  args : Args
  /-- the outside world's answers (the model's own) -/
  io : Io
  /-- the transport events, oldest first (R33) -/
  events : List Event
  /-- outcome of the last call; none while no call has returned -/
  result : Option CallResult
deriving DecidableEq, Repr

/-- Why the machine stops. -/
inductive Fault where
  /-- Raised by the operation that issues an `Xfer` when the transport never returns: "An `Xfer` that never returns
  leaves the call blocked" (60_exceptions.md R280, 93 U9 "stuck"). Safe: no later state is claimed. -/
  | transferHang
deriving DecidableEq, Repr

/-- Why a step has no meaning. -/
inductive Refusal where
  /-- Raised by `exec` for an instruction that has no meaning yet. Safe: nothing is claimed of it. -/
  | notModelled (mnemonic : String)
  /-- Raised by `step` for bytes at a port that no row of the opcode table has (log 17). Safe: nothing is claimed. -/
  | noSuchRow
  /-- Raised by `step` for a decoded term that `Instr.wellFormed` refuses; no decoded term is one. Safe. -/
  | illFormed
deriving DecidableEq, Repr

/-- No answers decided, none used. -/
def Io.fresh : Io where
  supports9 := ⟨[], 0⟩
  supports16 := ⟨[], 0⟩
  maxXfer := ⟨[], 0⟩
  alloc := ⟨[], 0⟩
  xfer := ⟨[], 0⟩
  havocs := 0

/-- Operands before any request. -/
def Args.none : Args where
  selectPresent := false
  readset := Option.none
  addr := 0
  len := 0

/-- A new block instance (R300, R301). PHASE and SEQ are as the spec states; the configuration registers (log 6), SEL
(log 7), the per-call state (log 8) and the model's own fields (log 23) hold values the model names. -/
def State.reset : State where
  params := Config.params
  phase := .unconfigured
  variant := .option1
  readsetValid := false
  readsetMap := 0
  sel := .cmd
  seq := .idle
  trail := []
  call := Call.idle
  mem := []
  pending := []
  args := Args.none
  io := Io.fresh
  events := []
  result := Option.none

end Sys2Proof.Machine
end

