-- ==== Sys2Proof/Machine/Memory.lean ====
section
/-! DEFINITION. Host memory (20_memory.md R50): reads and writes of bytes on the one canonical form. -/

namespace Sys2Proof.Machine

/-- What an address that is not listed reads as. DESIGN CHOICE, unsafe (log 9): the spec gives host memory no reset
contents. -/
def Memory.blank : Byte := 0x00

/-- The byte at an address (`MemRead(addr, 1)`). -/
def Memory.read : Memory → Nat → Byte
  | [], _ => Memory.blank
  | (x, v) :: rest, a => if a = x then v else Memory.read rest a

/-- Stores one byte (`MemWrite(addr, 1, [b])`), keeping the canonical form. -/
def Memory.write : Memory → Nat → Byte → Memory
  | [], a, b => if b = Memory.blank then [] else [(a, b)]
  | (x, v) :: rest, a, b =>
    if a < x then (if b = Memory.blank then (x, v) :: rest else (a, b) :: (x, v) :: rest)
    else if a = x then (if b = Memory.blank then rest else (a, b) :: rest)
    else (x, v) :: Memory.write rest a b

/-- `MemRead(addr, n)` (R9). -/
def Memory.readBytes (m : Memory) (a n : Nat) : List Byte := (List.range n).map fun i => m.read (a + i)

/-- `MemWrite(addr, n, l)` (R9, R57): byte i goes to addr + i. -/
def Memory.writeBytes : Memory → Nat → List Byte → Memory
  | m, _, [] => m
  | m, a, b :: rest => Memory.writeBytes (m.write a b) (a + 1) rest

/-- Cells at rising addresses from `lo` on, none of them blank. -/
def Memory.wfFrom (lo : Nat) : Memory → Bool
  | [] => true
  | (x, v) :: rest => decide (lo ≤ x) && decide (v ≠ Memory.blank) && Memory.wfFrom (x + 1) rest

/-- The canonical form. -/
def Memory.wf (m : Memory) : Bool := m.wfFrom 0

/-- Every listed address is one of the 2^w addresses of the space (R50). -/
def Memory.inSpace (w : Nat) (m : Memory) : Bool := m.all fun c => decide (c.1 < 2 ^ w)

end Sys2Proof.Machine
end

