-- ==== Sys2Proof/Machine/Operands.lean ====
section
/-! DEFINITION. The operand forms of the host operations (30_encoding.md R81), the byte streams the encoders take
(41_option1_native.md, 45_dispatcher.md R234) and the assembly of 16-bit words (20_memory.md R56). -/

namespace Sys2Proof.Machine

/-- `src` or `dst`: a host address of `P_ADDR_W` bits (R81). -/
def State.argAddr (s : State) : Nat := s.args.addr % 2 ^ s.params.addrW

/-- `n`: a byte count of `P_LEN_W` bits (R81). -/
def State.argLen (s : State) : Nat := s.args.len % 2 ^ s.params.lenW

/-- R51: a buffer of `n > 0` bytes lies wholly inside the address space; a buffer of length 0 always does (R52). -/
def State.fits (s : State) (addr n : Nat) : Bool := n == 0 || decide (addr + n ≤ 2 ^ s.params.addrW)

/-- Whether `v` is a member of a byte set (R23). -/
def setHas (m : ByteSet) (v : Byte) : Bool := m.getLsbD v.toNat

/-- Number of members of a byte set. -/
def setCard (m : ByteSet) : Nat := ((List.range 256).filter fun v => m.getLsbD v).length

/-- The set of the listed bytes. -/
def setOf (l : List Byte) : ByteSet := l.foldl (fun m v => m ||| (1#256 <<< v.toNat)) 0

/-- `cmd ∈ P_DCCMDS` (R6). -/
def isDcCmd (p : Params) (cmd : Byte) : Bool := cmd == p.dcCmds.first || cmd == p.dcCmds.second

/-- Where the bytes of a stream come from: the call itself, or host memory. -/
inductive Source where
  | bytes (l : List Byte)
  | memory (addr : Nat)
deriving DecidableEq, Repr

/-- A byte stream (C, get, n): one control tag for the whole sequence (R70, R234). -/
structure Stream where
  c : Bool
  source : Source
  n : Nat
deriving DecidableEq, Repr

/-- `get(j)`, byte j of the stream. -/
def Stream.get (st : Stream) (m : Memory) (j : Nat) : Byte :=
  match st.source with
  | .bytes l => l.getD j 0
  | .memory a => m.read (a + j)

/-- The bytes `get(pos), ..., get(pos + k − 1)`. -/
def Stream.slice (st : Stream) (m : Memory) (pos k : Nat) : List Byte :=
  (List.range k).map fun j => st.get m (pos + j)

/-- Address of the stream's source buffer, for the descriptor's SRC (R28); the command byte lies in no buffer. -/
def Stream.srcAddr (st : Stream) : Nat :=
  match st.source with
  | .bytes _ => 0
  | .memory a => a

/-- The command stream of a call: C = 0, the one byte cmd (R234). -/
def Stream.command (cmd : Byte) : Stream := ⟨false, .bytes [cmd], 1⟩

/-- The data stream of a call: C = 1, the n parameter bytes at src (R234). -/
def State.dataStream (s : State) : Stream := ⟨true, .memory s.argAddr, s.argLen⟩

/-- The 16-bit word of two consecutive source bytes, in the platform's byte order (R56). -/
def word16 (e : Endian) (b0 b1 : Byte) : Word16 :=
  match e with
  | .le => b1 ++ b0
  | .be => b0 ++ b1

/-- The 16-bit words of a byte list, two bytes a word (R56). An odd last byte makes no word: the path refuses odd
lengths (R183). -/
def words16 (e : Endian) : List Byte → List Word16
  | b0 :: b1 :: rest => word16 e b0 b1 :: words16 e rest
  | _ => []

end Sys2Proof.Machine
end

