-- ==== Sys2Proof/Machine/Flags.lean ====
section
/-! DEFINITION. The block has no status flags (10_state.md R20). This file holds the conditions it computes instead: the
per-call choices (R25 to R27, 43_option3_command.md R182), the codes of its named values, and the read clock rate. -/

namespace Sys2Proof.Machine

/-- Encoding of PHASE (R21). -/
def Phase.code : Phase → BitVec 2
  | .unconfigured => 0
  | .configured => 1
  | .ready => 2

/-- Encoding of VARIANT (R22). -/
def Variant.code : Variant → BitVec 1
  | .option1 => 0
  | .option3 => 1

/-- Place of a SEQ state in the order of R30. -/
def Seq.order : Seq → Nat
  | .idle => 0
  | .check => 1
  | .alloc => 2
  | .cmdPhase => 3
  | .dataPhase => 4
  | .readPhase => 5
  | .decode => 6
  | .done => 7

/-- Code of a call's outcome; a refusal has none (60_exceptions.md R270). -/
def CallResult.code : CallResult → Option Nat
  | .ok _ => some 0
  | .err .invalidArgument => some 1
  | .err .unsupported => some 2
  | .err .resourceExhausted => some 3
  | .err (.busError _) => some 4
  | .refused _ => none

/-- The control bit of a command (false) or data (true) stream, as the select level that carries it (R70). -/
def levelOf : Bool → Level
  | false => .cmd
  | true => .data

/-- `ROUTE <- (VARIANT = OPTION3) ? O3 : (CAP9 ? N9 : E8)` (R25). -/
def routeOf (v : Variant) (cap9 : Bool) : Route :=
  match v with
  | .option3 => .o3
  | .option1 => if cap9 then .n9 else .e8

/-- `SWAP <- (P_HOST_ENDIAN = LE) and not CAP16` (R27). -/
def swapOf (e : Endian) (cap16 : Bool) : Bool := decide (e = .le) && !cap16

/-- Whether the Option 3 data phase is 16 bits wide: `cmd = P_MEMWRITE_CMD and SWAP = 0 and CAP16 = 1` (R182). -/
def wideData (p : Params) (c : Call) (cmd : Byte) : Bool := cmd == p.memWriteCmd && !c.swap && c.cap16

/-- `READ_HZ = min(P_READ_CEIL_HZ, BUS_MAX_HZ / 2)` (R207). -/
def readHz (p : Params) : Nat := min p.readCeilHz (p.busMaxHz / 2)

/-- Clock rate of a speed: READ has R207's; the transport's own default rate is not the block's to know. -/
def Speed.hz (p : Params) : Speed → Option Nat
  | .default => none
  | .read => some (readHz p)

/-- Whether the power-mode byte says the display is on (R238): `(b & P_PM_MASK) = P_PM_EXPECT`. -/
def powerModeOn (p : Params) (b : Byte) : Bool := (b &&& p.pmMask) == p.pmExpect

/-- DIR of a payload (R28). -/
def Payload.dir : Payload → Dir
  | .write _ => .w
  | .read _ => .r

/-- Bits per word of a word list (R32). -/
def Words.bpw : Words → Nat
  | .w8 _ => 8
  | .w9 _ => 9
  | .w16 _ => 16

/-- Number of words in a word list. -/
def Words.length : Words → Nat
  | .w8 ws => ws.length
  | .w9 ws => ws.length
  | .w16 ws => ws.length

/-- Bytes a word list takes of the transport's ceiling: a 9-bit or 16-bit word takes a 2-byte container (R123, R185). -/
def Words.containerBytes : Words → Nat
  | .w8 ws => ws.length
  | .w9 ws => 2 * ws.length
  | .w16 ws => 2 * ws.length

/-- Bits per word of a payload: reads are 8 bits wide (R54). -/
def Payload.bpw : Payload → Nat
  | .write ws => ws.bpw
  | .read _ => 8

/-- Number of words of a payload. -/
def Payload.length : Payload → Nat
  | .write ws => ws.length
  | .read count => count

end Sys2Proof.Machine
end

