-- ==== Sys2Proof/Machine/Framing.lean ====
section
/-! DEFINITION. How a chunk of source bytes becomes the words of one transfer, route by route (R240: one exhaustive case
analysis): the group packer (42_option1_emulated.md R141), the chunk sizes (R123, R145, R185) and the frames. -/

namespace Sys2Proof.Machine

/-- The framings of a data or command stream: native words with a control bit (R120), emulated data groups (R146),
Option 3 bytes, and Option 3 16-bit words in a byte order (R180). -/
inductive Framing where
  | n9 (c : Bool)
  | e8
  | o3x8
  | o3x16 (e : Endian)
deriving DecidableEq, Repr

/-- PACK's ACC for word slots `i`, `i+1`, ... of a group (R141): slot i's control bit goes to `ACC[63 − 9i]` and, for
i ≤ 6, its byte to `ACC[62 − 9i : 55 − 9i]`; slot 7 has only its control bit there. -/
def packFrom (c : Bool) : Nat → List Byte → Acc
  | _, [] => 0
  | i, b :: rest =>
    (if i ≤ 6 then (word9 c b).zeroExtend 64 <<< (55 - 9 * i) else (BitVec.ofBool c).zeroExtend 64) |||
      packFrom c (i + 1) rest

/-- ACC of a group of 1 to 8 bytes (R141). -/
def packAcc (c : Bool) (g : List Byte) : Acc := packFrom c 0 g

/-- PACK(C, g) (R141): the big-endian bytes of ACC, and the 8th byte raw after them when the group is full. -/
def pack (c : Bool) (g : List Byte) : List Byte :=
  bytesOf 8 (packAcc c g) ++ (if g.length = 8 then [g.getD 7 0] else [])

/-- The emulated bytes of a chunk of data (R146): its full groups of 8, then what is left as a partial group. -/
def packChunk : List Byte → List Byte
  | b0 :: b1 :: b2 :: b3 :: b4 :: b5 :: b6 :: b7 :: rest => pack true [b0, b1, b2, b3, b4, b5, b6, b7] ++ packChunk rest
  | [] => []
  | g => pack true g

/-- The last group of a chunk: the one ACC holds when the chunk is sent. -/
def lastGroup (bs : List Byte) : List Byte := bs.drop ((bs.length - 1) / 8 * 8)

/-- The command frame (R144): `zeros(8) ++ [cmd]`. -/
def commandFrame (cmd : Byte) : List Byte := List.replicate 8 0 ++ [cmd]

/-- `CHUNKSIZE(rem)` (R145), with `CAP = (T / 9) * 8`. -/
def chunkSize (t rem : Nat) : Nat :=
  let cap := t / 9 * 8
  min rem (max 8 (min cap rem / 8 * 8))

/-- Source bytes the next transfer carries, of `rem` remaining (R123, R145, R185). -/
def Framing.size : Framing → Nat → Nat → Nat
  | .n9 _, t, rem => min (t / 2) rem
  | .e8, t, rem => chunkSize t rem
  | .o3x8, t, rem => min t rem
  | .o3x16 _, t, rem => 2 * min (t / 2) (rem / 2)

/-- Words of the transfer that carries a chunk (R120, R146, R180). -/
def Framing.words : Framing → List Byte → Words
  | .n9 c, bs => .w9 (bs.map (word9 c))
  | .e8, bs => .w8 (packChunk bs)
  | .o3x8, bs => .w8 bs
  | .o3x16 e, bs => .w16 (words16 e bs)

/-- ACC after a chunk is encoded: only the emulated encoder uses it (R29). -/
def Framing.acc : Framing → List Byte → Acc
  | .n9 _, _ => 0
  | .e8, bs => packAcc true (lastGroup bs)
  | .o3x8, _ => 0
  | .o3x16 _, _ => 0

/-- Bits per word of a framing's transfers. -/
def Framing.bpw : Framing → Nat
  | .n9 _ => 9
  | .e8 => 8
  | .o3x8 => 8
  | .o3x16 _ => 16

/-- The transfers of a byte list, in order, under a ceiling T: what an encoder hands to `Xfer`, chunk by chunk. `fuel`
bounds the number of transfers; the length of the list is enough. -/
def transfersFuel (f : Framing) (t : Nat) : Nat → List Byte → List Words
  | 0, _ => []
  | fuel + 1, bs =>
    if bs.isEmpty then []
    else f.words (bs.take (f.size t bs.length)) :: transfersFuel f t fuel (bs.drop (f.size t bs.length))

/-- The transfers of a byte list under a ceiling T. -/
def transfers (f : Framing) (t : Nat) (bs : List Byte) : List Words := transfersFuel f t bs.length bs

/-- The dummy-clock decode (44_option3_read.md R205): `out[i] = ((raw[i] << 1) & 0xFF) | (raw[i+1] >> 7)`. -/
def dummyClockDecode (n : Nat) (raw : List Byte) : List Byte :=
  (List.range n).map fun i => (raw.getD i 0 <<< 1) ||| (raw.getD (i + 1) 0 >>> 7)

/-- Raw bytes a read of n bytes asks for (R203, R206). -/
def rawLength (dc : Bool) (n : Nat) : Nat := if dc then n + 1 else n

/-- The n result bytes of a read's raw bytes (R205, R206). -/
def readDecode (dc : Bool) (n : Nat) (raw : List Byte) : List Byte := if dc then dummyClockDecode n raw else raw

end Sys2Proof.Machine
end

