-- ==== Sys2Proof/Machine/Ops.lean ====
section
/-! DEFINITION. The named operations every meaning is made of: the pseudocode primitives of 00_scope.md R9, how a call
begins and ends (60_exceptions.md R273, R278), and the stream loop the encoders share. -/

namespace Sys2Proof.Machine

/-! Field updates. -/

/-- `seq <- q` (R9, R30); the state passed is added to the trail. -/
def State.setSeq (q : Seq) (s : State) : State := { s with seq := q, trail := s.trail ++ [q] }

/-- Writes the per-call state. -/
def State.setCall (c : Call) (s : State) : State := { s with call := c }

/-- Writes the outside world's answers. -/
def State.setIo (io : Io) (s : State) : State := { s with io := io }

/-- Writes host memory. -/
def State.setMem (m : Memory) (s : State) : State := { s with mem := m }

/-- `Select(level)`: drives the select line and records the event (R9, R31). -/
def State.select (l : Level) (s : State) : State := { s with sel := l, events := s.events ++ [.sel l] }

/-! Answers from outside. -/

/-- The j-th answer from now of a query: a decided one, else the free value of its index. -/
def Feed.nth {α : Type} (free : Nat → α) (f : Feed α) (j : Nat) : α := f.script.getD j (free (f.count + j))

/-- One answer used. -/
def Feed.tick {α : Type} (f : Feed α) : Feed α := ⟨f.script.tail, f.count + 1⟩

/-- What the transport answers to the j-th `Xfer` from now (R32). -/
def State.xferAnswer (s : State) (j : Nat) : XferAnswer := s.io.xfer.nth Config.freeXfer j

/-- What `Supports(9)` answers now (R32). -/
def State.supports9 (s : State) : Bool := s.io.supports9.nth Config.freeSupports9 0

/-- What `Supports(16)` answers now. -/
def State.supports16 (s : State) : Bool := s.io.supports16.nth Config.freeSupports16 0

/-- What `MaxXfer()` answers now: T, of `P_LEN_W` bits (R26). -/
def State.maxXfer (s : State) : Nat := s.io.maxXfer.nth Config.freeMaxXfer 0 % 2 ^ s.params.lenW

/-- What `Alloc()` answers now (R276). -/
def State.allocAnswer (s : State) : Bool := s.io.alloc.nth Config.freeAlloc 0

/-! How a call begins, goes on and ends. -/

/-- Where a call stands after some of its work: it goes on, it has raised an error, it has been refused, or it is blocked
in an `Xfer` that never returns. -/
inductive Flow where
  | go (s : State)
  | err (k : ErrKind) (s : State)
  | refuse (r : Reason) (s : State)
  | hang

/-- Goes on with the next piece of work where the call goes on; every other way of standing stays (R273: fail-fast). -/
def Flow.andThen (f : Flow) (k : State → Flow) : Flow :=
  match f with
  | .go s => k s
  | .err e s => .err e s
  | .refuse r s => .refuse r s
  | .hang => .hang

/-- A call begins: SEQ enters its first state from IDLE and the per-call state is new (R20, R30). -/
def State.enter (q : Seq) (s : State) : State := { s with seq := q, trail := [q], call := Call.idle }

/-- A call ends with an outcome: SEQ goes to DONE and then IDLE, the scratch and the other per-call state are released,
and the host gets the outcome (R273, R278, R66). Nothing persistent changes. -/
def State.finish (r : CallResult) (s : State) : State :=
  { s with seq := .idle, trail := s.trail ++ [.done], call := Call.idle, result := some r }

/-- `return ok(v)` (R9). -/
def State.returnOk (v : Option Bool) (s : State) : State := s.finish (.ok v)

/-- `raise kind(info)`: the entry of an error, one for all four kinds (R9, R273). There is no operation that returns from
one: the block is at once ready for the next call (R278). -/
def State.raiseErr (k : ErrKind) (s : State) : State := s.finish (.err k)

/-- `refuse reason` (R9, R10). -/
def State.refuseCall (r : Reason) (s : State) : State := s.finish (.refused r)

/-- Ends a call that writes no host memory. -/
def Flow.close (f : Flow) : Host.Outcome State Fault Refusal :=
  match f with
  | .go s => .next (s.returnOk none)
  | .err k s => .next (s.raiseErr k)
  | .refuse r s => .next (s.refuseCall r)
  | .hang => .fault .transferHang

/-- Any bytes in the part of `dst[0..n)` that exists: its contents after a failed read (R57, log 10). -/
def State.havoc (dst n : Nat) (s : State) : State :=
  { s with
    mem := s.mem.writeBytes dst
      ((List.range (min n (2 ^ s.params.addrW - dst))).map (Config.freeDst s.io.havocs))
    io := { s.io with havocs := s.io.havocs + 1 } }

/-- Ends a read call into `dst[0..n)`: an error or a refusal leaves any bytes there (R57). -/
def Flow.endRead (dst n : Nat) (f : Flow) : Host.Outcome State Fault Refusal :=
  match f with
  | .go s => .next (s.returnOk none)
  | .err k s => .next ((s.havoc dst n).raiseErr k)
  | .refuse r s => .next ((s.havoc dst n).refuseCall r)
  | .hang => .fault .transferHang

/-- `ALLOC`: draws the call's allocation outcome (R276); a failure raises ResourceExhausted (R275). -/
def State.allocate (s : State) : Flow :=
  let s' := (s.setSeq .alloc).setIo { s.io with alloc := s.io.alloc.tick }
  if s.allocAnswer then .go (s'.setCall { s'.call with allocated := true }) else .err .resourceExhausted s'

/-! Transfers. -/

/-- Words a completed transfer received: as many bytes as a read asks for, any value where the answer lists none
(R32, R210, log 15); a write receives none. -/
def received (p : Payload) (raw : List Byte) (k : Nat) : List Byte :=
  match p with
  | .write _ => []
  | .read n => (List.range n).map fun i => raw.getD i (Config.freeRaw k i)

/-- The per-call state after an answered transfer: RAW holds what a completed read received (R29, R200). -/
def Call.keepReply (p : Payload) (r : Reply) (c : Call) : Call :=
  match p, r with
  | .read _, .ok got => { c with raw := got }
  | .read _, .err _ _ => c
  | .write _, _ => c

/-- One transfer has been answered: the event is recorded, the answer used up and what was received is kept. -/
def State.noteXfer (sp : Speed) (p : Payload) (r : Reply) (s : State) : State :=
  { s with
    call := s.call.keepReply p r
    events := s.events ++ [.xfer sp p r]
    io := { s.io with xfer := s.io.xfer.tick } }

/-- `Xfer(dir, bpw, speed, payload)` (R9, R32): one blocking transfer; an error is passed on unchanged as BusError
(R274), with the prefix of the payload that reached the bus (R65). -/
def State.xfer (sp : Speed) (p : Payload) (s : State) : Flow :=
  match s.xferAnswer 0 with
  | .ok raw => .go (s.noteXfer sp p (.ok (received p raw s.io.xfer.count)))
  | .err e r => .err (.busError e) (s.noteXfer sp p (.err e (min r p.length)))
  | .never => .hang

/-- Puts the words that `k` source bytes become into SCRATCH and describes the one transfer that carries them all: its
chunk is the whole source, which lies in no host buffer (R28, R29). -/
def State.load (k : Nat) (ws : Words) (s : State) : State :=
  s.setCall { s.call with
    dir := .w, bpw := ws.bpw, src := 0, srcLen := k, chunk := k, rem := k, pos := 0, scratch := ws }

/-- Sends what SCRATCH holds as one write transfer. -/
def State.sendScratch (sp : Speed) (s : State) : Flow := s.xfer sp (.write s.call.scratch)

/-- Puts raw bytes in hand into RAW (R29). -/
def State.keepRaw (raw : List Byte) (s : State) : State := s.setCall { s.call with raw := raw }

/-- One read transfer of `k` raw bytes at READ speed, described for the n bytes at dst (R28, R200). A read negotiates no
chunk and R28 speaks of source bytes only, so what CHUNK holds here is the model's choice: `k`, the raw length (DESIGN
CHOICE, log 8). -/
def State.receive (dst n k : Nat) (s : State) : Flow :=
  (s.setCall { s.call with dir := .r, bpw := 8, src := dst, srcLen := n, chunk := k }).xfer .read (.read k)

/-! The stream loop of R120, R146 and R180. -/

/-- Opens a stream: the descriptor's SRC and SRCLEN, REM and POS (R28). -/
def State.openStream (st : Stream) (s : State) : State :=
  s.setCall { s.call with dir := .w, src := st.srcAddr, srcLen := st.n, rem := st.n, pos := 0 }

/-- Builds the next transfer of a stream: CHUNK from T and REM, and the words of the chunk's bytes in SCRATCH. -/
def State.loadChunk (f : Framing) (st : Stream) (s : State) : State :=
  let k := f.size s.call.t s.call.rem
  let bs := st.slice s.mem s.call.pos k
  s.setCall { s.call with bpw := f.bpw, chunk := k, acc := f.acc bs, scratch := f.words bs }

/-- The chunk has been sent: `pos <- pos + chunk` (R120, R146, R180). -/
def State.advance (s : State) : State :=
  s.setCall { s.call with pos := s.call.pos + s.call.chunk, rem := s.call.rem - s.call.chunk }

/-- One write transfer of the given words, which carry all of `k` source bytes. -/
def State.send (sp : Speed) (k : Nat) (ws : Words) (s : State) : Flow :=
  ((s.load k ws).sendScratch sp).andThen fun s' => .go s'.advance

/-- Sends the rest of a stream, one transfer per chunk, until none remains or one fails. -/
def streamLoop (f : Framing) (st : Stream) : Nat → State → Flow
  | 0, s => .go s
  | fuel + 1, s =>
    if s.call.rem = 0 then .go s
    else ((s.loadChunk f st).sendScratch .default).andThen fun s' => streamLoop f st fuel s'.advance

/-- Sends a whole stream. Every chunk carries at least one byte, so as many rounds as bytes are enough. -/
def sendStream (f : Framing) (st : Stream) (s : State) : Flow := streamLoop f st st.n (s.openStream st)

/-- The decoded bytes of a read leave RAW for host memory (R57). -/
def State.storeOut (dst : Nat) (out : List Byte) (s : State) : State := s.setMem (s.mem.writeBytes dst out)

end Sys2Proof.Machine
end

