-- ==== Sys2Proof/Machine/Classifier.lean ====
section
/-! DEFINITION. The read command classifier (40_classifier.md). -/

namespace Sys2Proof.Machine

/-- CLASSIFY(cmd) (R100): with no set configured every command is a write; else one lookup in the map. -/
def State.classify (s : State) (cmd : Byte) : Bool := s.readsetValid && setHas s.readsetMap cmd

/-- CLASSIFY as an operation of its own (R100): it always answers, writes no block state and issues no event; the answer
is what the asker gets. -/
def execClassify (cmd : Byte) (s : State) : Host.Outcome State Fault Refusal :=
  .next { s with result := some (.ok (some (s.classify cmd))) }

end Sys2Proof.Machine
end

