-- ==== Sys2Proof/Machine/Emulated.lean ====
section
/-! DEFINITION. The Option 1 emulated encoder, the 8 to 9 repacker (42_option1_emulated.md). -/

namespace Sys2Proof.Machine

/-- E8.CMD(cmd) (R144): the 9-byte command frame in one 8-bit transfer. -/
def e8Command (cmd : Byte) (s : State) : Flow := s.send .default 1 (.w8 (commandFrame cmd))

/-- One data group in a transfer of its own (R142, R143): PACK leaves ACC and the output bytes in SCRATCH. -/
def e8Group (g : List Byte) (s : State) : Flow :=
  (s.setCall { s.call with acc := packAcc true g }).send .default g.length (.w8 (pack true g))

/-- What CHECK tests of a stream for E8.ENC: a command stream of a length other than 1 has no emulated encoding (R148),
and T must hold a frame (R147). -/
def e8Check (st : Stream) (s : State) : Flow :=
  if st.c = false ∧ st.n ≠ 1 then .refuse .cmdLength s
  else if s.call.t < 9 then .err .invalidArgument s
  else .go s

/-- E8.ENC(stream) (R140), of a stream that passed `e8Check`: a command stream is E8.CMD of its one byte, a data stream is
E8.DATA (R146). -/
def e8Encode (st : Stream) (s : State) : Flow :=
  if st.c then sendStream .e8 st s else e8Command (st.get s.mem 0) s

/-- T of a direct call of the encoder, sampled as a write call samples it (R26). DESIGN CHOICE, log 29: R25 and R156 give
ROUTE for the calls that the dispatcher routes; a direct call sets it to E8 under either VARIANT and without asking
`Supports(9)`, so CAP9 is not sampled. Nothing reads ROUTE before the call ends. -/
def State.sampleE8 (s : State) : State :=
  (s.setIo { s.io with maxXfer := s.io.maxXfer.tick }).setCall { s.call with t := s.maxXfer, route := .e8 }

/-- The stream of a direct call: bytes in hand, under one control bit. -/
def Stream.ofBytes (c : Bool) (l : List Byte) : Stream := ⟨c, .bytes l, l.length⟩

/-- The direct use of the encoder that R148 speaks of: E8.ENC of a stream in hand, as a call of its own (log 29). CHECK
samples T and tests the stream, then comes the allocation, then the stream. A data stream of no bytes sends nothing
(R149). -/
def execE8Stream (c : Bool) (l : List Byte) (s : State) : Host.Outcome State Fault Refusal :=
  Flow.close
    ((e8Check (Stream.ofBytes c l) (s.enter .check).sampleE8).andThen fun s1 =>
      s1.allocate.andThen fun s2 =>
        e8Encode (Stream.ofBytes c l) (s2.setSeq (if c then .dataPhase else .cmdPhase)))

/-- E8.CMD by itself (R144). Here and in the E8 rows below a frame by itself is sent under either VARIANT, without sampling T
and so without R147's test of it (DESIGN CHOICE, log 2). -/
def execE8Cmd (c : Byte) (s : State) : Host.Outcome State Fault Refusal :=
  (e8Command c (s.enter .cmdPhase)).close

/-- E8.FULL (R142): eight data bytes, 9 bytes out, by itself (log 2). -/
def execE8Full (b0 b1 b2 b3 b4 b5 b6 b7 : Byte) (s : State) : Host.Outcome State Fault Refusal :=
  (e8Group [b0, b1, b2, b3, b4, b5, b6, b7] (s.enter .dataPhase)).close

/-- E8.PART1 by itself (R143; log 2). -/
def execE8Part1 (b0 : Byte) (s : State) : Host.Outcome State Fault Refusal :=
  (e8Group [b0] (s.enter .dataPhase)).close

/-- E8.PART2 by itself (R143; log 2). -/
def execE8Part2 (b0 b1 : Byte) (s : State) : Host.Outcome State Fault Refusal :=
  (e8Group [b0, b1] (s.enter .dataPhase)).close

/-- E8.PART3 by itself (R143; log 2). -/
def execE8Part3 (b0 b1 b2 : Byte) (s : State) : Host.Outcome State Fault Refusal :=
  (e8Group [b0, b1, b2] (s.enter .dataPhase)).close

/-- E8.PART4 by itself (R143; log 2). -/
def execE8Part4 (b0 b1 b2 b3 : Byte) (s : State) : Host.Outcome State Fault Refusal :=
  (e8Group [b0, b1, b2, b3] (s.enter .dataPhase)).close

/-- E8.PART5 by itself (R143; log 2). -/
def execE8Part5 (b0 b1 b2 b3 b4 : Byte) (s : State) : Host.Outcome State Fault Refusal :=
  (e8Group [b0, b1, b2, b3, b4] (s.enter .dataPhase)).close

/-- E8.PART6 by itself (R143; log 2). -/
def execE8Part6 (b0 b1 b2 b3 b4 b5 : Byte) (s : State) : Host.Outcome State Fault Refusal :=
  (e8Group [b0, b1, b2, b3, b4, b5] (s.enter .dataPhase)).close

/-- E8.PART7 by itself (R143; log 2). -/
def execE8Part7 (b0 b1 b2 b3 b4 b5 b6 : Byte) (s : State) : Host.Outcome State Fault Refusal :=
  (e8Group [b0, b1, b2, b3, b4, b5, b6] (s.enter .dataPhase)).close

end Sys2Proof.Machine
end

