-- ==== Sys2Proof/Machine/Native.lean ====
section
/-! DEFINITION. The Option 1 native encoder (41_option1_native.md). -/

namespace Sys2Proof.Machine

/-- N9.ENC(C, get, n) (R120): one W9 word per byte, as many words in a transfer as fit T in 2-byte containers. -/
def n9Encode (st : Stream) (s : State) : Flow := sendStream (.n9 st.c) st s

/-- N9.CMD (R121): exactly one transfer, of the word `{0, cmd}`. A row by itself, sent without asking
`Supports(9)` and under either VARIANT (DESIGN CHOICE, log 2). -/
def execN9Cmd (c : Byte) (s : State) : Host.Outcome State Fault Refusal :=
  ((s.enter .cmdPhase).send .default 1 (.w9 [word9 false c])).close

/-- N9.DATA (R122): the word `{1, b}`; one word by itself is one transfer, sent without asking `Supports(9)` and under
either VARIANT (DESIGN CHOICE, log 2). -/
def execN9Data (d : Byte) (s : State) : Host.Outcome State Fault Refusal :=
  ((s.enter .dataPhase).send .default 1 (.w9 [word9 true d])).close

end Sys2Proof.Machine
end

