-- ==== Sys2Proof/Machine/Option3Write.lean ====
section
/-! DEFINITION. The Option 3 command encoder (43_option3_command.md). -/

namespace Sys2Proof.Machine

/-- O3.CMD (R181): `Select(CMD)`, then one 8-bit transfer of the command byte, at the call's speed. -/
def o3Command (sp : Speed) (cmd : Byte) (s : State) : Flow := (s.select .cmd).send sp 1 (.w8 [cmd])

/-- The framing of an Option 3 data phase (R182). -/
def o3Framing (s : State) (cmd : Byte) : Framing :=
  if wideData s.params s.call cmd then .o3x16 s.params.hostEndian else .o3x8

/-- O3.WRITE(cmd, src, n) (R180): the command phase, and where there are parameters `Select(DATA)` and the data phase. -/
def o3Write (cmd : Byte) (s : State) : Flow :=
  (o3Command .default cmd (s.setSeq .cmdPhase)).andThen fun s1 =>
    if s1.argLen = 0 then .go s1
    else sendStream (o3Framing s1 cmd) s1.dataStream ((s1.setSeq .dataPhase).select .data)

/-- O3.CMD by itself (R181), at the DEFAULT speed of writes. A row by itself has no VARIANT check, so this one drives the
select line under OPTION1 too, which no host call does (R31): DESIGN CHOICE, log 2. -/
def execO3Cmd (c : Byte) (s : State) : Host.Outcome State Fault Refusal :=
  (o3Command .default c (s.enter .cmdPhase)).close

/-- O3.DATA8 by itself (R182): a data phase of one 8-bit word, under either VARIANT (DESIGN CHOICE, log 2). -/
def execO3Data8 (d : Byte) (s : State) : Host.Outcome State Fault Refusal :=
  (((s.enter .dataPhase).select .data).send .default 1 (.w8 [d])).close

/-- O3.DATA16 by itself (R78, R182): a data phase of one 16-bit word. DESIGN CHOICE, log 2: in a write call the 16-bit width
has the condition `cmd = P_MEMWRITE_CMD`, SWAP = 0, CAP16 = 1 (`wideData`); a row by itself has no command, and it sends its
word under either VARIANT, without this condition and without asking `Supports(16)`. -/
def execO3Data16 (d : Word16) (s : State) : Host.Outcome State Fault Refusal :=
  (((s.enter .dataPhase).select .data).send .default 2 (.w16 [d])).close

end Sys2Proof.Machine
end

