-- ==== Sys2Proof/Machine/Option3Read.lean ====
section
/-! DEFINITION. The Option 3 read decoder (44_option3_read.md). -/

namespace Sys2Proof.Machine

/-- The checks of O3.READ (R200 to R202, R209), in order. -/
def o3ReadCheck (cmd : Byte) (n : Nat) (s : State) : Flow :=
  if s.readsetValid = false then .err .unsupported s
  else if isDcCmd s.params cmd then (if n = 3 ∨ n = 4 then .go s else .err .invalidArgument s)
  else if n = 0 then .refuse .zeroRead s
  else .go s

/-- O3.READ up to its decode (R200): checks, allocation, the command phase at READ speed, and one read transfer of
`rawlen` bytes with SEL left at CMD (R204, R207). SEQ ends in DECODE and RAW holds the raw bytes. -/
def o3ReadRaw (cmd : Byte) (dst n : Nat) (s : State) : Flow :=
  (o3ReadCheck cmd n s).andThen fun s1 =>
    s1.allocate.andThen fun s2 =>
      (o3Command .read cmd (s2.setSeq .cmdPhase)).andThen fun s3 =>
        ((s3.setSeq .readPhase).receive dst n (rawLength (isDcCmd s.params cmd) n)).andThen fun s4 =>
          .go (s4.setSeq .decode)

/-- The n result bytes that RAW decodes to (R205, R206). -/
def State.readOut (s : State) (cmd : Byte) (n : Nat) : List Byte := readDecode (isDcCmd s.params cmd) n s.call.raw

/-- DECODE of raw bytes in hand into the host's destination (R57, R205, R206), n bytes at the request's `dst`; a
destination outside the address space is refused (R51). The direct use of the three read formats. DESIGN CHOICE, log 2: a
read call chooses its format by `cmd` in or not in `P_DCCMDS` (R83) and checks PHASE, VARIANT and the read set first; a
format by itself has no command, so it decodes in any PHASE and VARIANT, with no read set and no `P_DCCMDS` test, and it
allocates nothing, transfers nothing and leaves SEL alone. -/
def decodeInto (n : Nat) (raw : List Byte) (dc : Bool) (s : State) : Host.Outcome State Fault Refusal :=
  let s1 := (s.enter .decode).keepRaw raw
  let dst := s.argAddr
  Flow.endRead dst n
    (if s1.fits dst n then .go (s1.storeOut dst (readDecode dc n s1.call.raw)) else .refuse .addrRange s1)

/-- O3.RD8 (R206) by itself, without a read call's checks (DESIGN CHOICE, log 2): a returned byte, copied unchanged. -/
def execO3Rd8 (r : Byte) (s : State) : Host.Outcome State Fault Refusal := decodeInto 1 [r] false s

/-- O3.RDDC3 (R205) by itself, without a read call's checks (DESIGN CHOICE, log 2): four raw bytes, one dummy bit, three
result bytes. -/
def execO3Rddc3 (x : BitVec 1) (a b c : Byte) (y : BitVec 7) (s : State) : Host.Outcome State Fault Refusal :=
  decodeInto 3 (bytesOf 4 (x ++ a ++ b ++ c ++ y)) true s

/-- O3.RDDC4 (R205) by itself, without a read call's checks (DESIGN CHOICE, log 2): five raw bytes, one dummy bit, four
result bytes. -/
def execO3Rddc4 (x : BitVec 1) (a b c d : Byte) (y : BitVec 7) (s : State) : Host.Outcome State Fault Refusal :=
  decodeInto 4 (bytesOf 5 (x ++ a ++ b ++ c ++ d ++ y)) true s

end Sys2Proof.Machine
end

