-- ==== Sys2Proof/Machine/HostOps.lean ====
section
/-! DEFINITION. The dispatcher and the host operations (45_dispatcher.md). A host call is one atomic request (00_scope.md
R5), so each meaning here is a whole call. -/

namespace Sys2Proof.Machine

/-- Whether CONFIGURE refuses a read set (R230): more than `P_READSET_MAX` members, or the sentinel among them. -/
def badReadSet (p : Params) : Option ByteSet → Bool
  | none => false
  | some m => decide (Config.readsetMax < setCard m) || setHas m p.readsetSentinel

/-- The configuration CONFIGURE writes (R230): the two fields of the read set, the variant, and PHASE through CONFIGURED
at once to READY (R21). -/
def State.configureWith (a : Args) (s : State) : State :=
  let s1 := { s with
    variant := if a.selectPresent then .option3 else .option1
    readsetValid := a.readset.isSome
    readsetMap := a.readset.getD 0
    phase := .configured }
  { s1 with phase := .ready }

/-- CONFIGURE(select_present, readset) (R230). -/
def execConfigure (s : State) : Host.Outcome State Fault Refusal :=
  let s0 := s.enter .check
  Flow.close
    (if s.phase ≠ .unconfigured then .refuse .reconfigure s0
     else if badReadSet s.params s.args.readset then .refuse .badReadSet s0
     else .go (s0.configureWith s.args))

/-- The transport's answers and the choices made from them, once per write call (R25 to R27, R232). -/
def State.sample (s : State) : State :=
  match s.variant with
  | .option1 =>
    (s.setIo { s.io with supports9 := s.io.supports9.tick, maxXfer := s.io.maxXfer.tick }).setCall
      { s.call with cap9 := s.supports9, t := s.maxXfer, route := routeOf .option1 s.supports9 }
  | .option3 =>
    (s.setIo { s.io with supports16 := s.io.supports16.tick, maxXfer := s.io.maxXfer.tick }).setCall
      { s.call with
        cap16 := s.supports16, t := s.maxXfer, route := routeOf .option3 s.call.cap9
        swap := swapOf s.params.hostEndian s.supports16 }

/-- The checks of a write call on its route (R233): R124, R148 and R147, R184, then R183. -/
def writeCheck (cmd : Byte) (n : Nat) (s : State) : Flow :=
  match s.call.route with
  | .n9 => if s.call.t < 2 then .err .invalidArgument s else .go s
  | .e8 => e8Check (Stream.command cmd) s
  | .o3 =>
    if s.call.t < 1 ∨ (wideData s.params s.call cmd = true ∧ 0 < n ∧ s.call.t < 2) then .err .invalidArgument s
    else if wideData s.params s.call cmd = true ∧ n % 2 = 1 then .refuse .oddLength16 s
    else .go s

/-- The command stream and, where n > 0, the data stream of a write, through the encoder of its route (R233, R234, R240). -/
def encodeWrite (cmd : Byte) (s : State) : Flow :=
  match s.call.route with
  | .n9 =>
    (n9Encode (Stream.command cmd) (s.setSeq .cmdPhase)).andThen fun s1 =>
      if s1.argLen = 0 then .go s1 else n9Encode s1.dataStream (s1.setSeq .dataPhase)
  | .e8 =>
    (e8Encode (Stream.command cmd) (s.setSeq .cmdPhase)).andThen fun s1 =>
      if s1.argLen = 0 then .go s1 else e8Encode s1.dataStream (s1.setSeq .dataPhase)
  | .o3 => o3Write cmd s

/-- The write path of SEND_COMMAND, from the address check on (R233). -/
def writeCall (cmd : Byte) (s : State) : Flow :=
  if s.fits s.argAddr s.argLen then
    (writeCheck cmd s.argLen s.sample).andThen fun s1 => s1.allocate.andThen (encodeWrite cmd)
  else .refuse .addrRange s

/-- READ_COMMAND after its phase check, up to the decode (R236): the address of a host destination, the classifier, the
variant (R237), and O3.READ. -/
def readFlow (cmd : Byte) (dst n : Nat) (inSpace : Bool) (s : State) : Flow :=
  if s.phase ≠ .ready then .refuse .notReady s
  else if inSpace = false then .refuse .addrRange s
  else if s.classify cmd = false then .err .unsupported s
  else if s.variant = .option1 then .err .unsupported s
  else o3ReadRaw cmd dst n s

/-- READ_COMMAND(cmd, dst, n) into host memory (R236, R57). -/
def readCall (cmd : Byte) (s : State) : Host.Outcome State Fault Refusal :=
  Flow.endRead s.argAddr s.argLen
    ((readFlow cmd s.argAddr s.argLen (s.fits s.argAddr s.argLen) s).andThen fun s1 =>
      .go (s1.storeOut s.argAddr (s1.readOut cmd s.argLen)))

/-- READ_COMMAND (R236). -/
def execReadCommand (cmd : Byte) (s : State) : Host.Outcome State Fault Refusal := readCall cmd (s.enter .check)

/-- SEND_COMMAND (R233). A command classified as a read is carried out exactly as READ_COMMAND (R235), which makes the
same address check first; every other command is a write. -/
def execSendCommand (cmd : Byte) (s : State) : Host.Outcome State Fault Refusal :=
  let s0 := s.enter .check
  if s.phase ≠ .ready then .next (s0.refuseCall .notReady)
  else if s.classify cmd then readCall cmd s0
  else (writeCall cmd s0).close

/-- Puts the one byte of the power-mode read into PMBUF (R238). -/
def State.keepPm (out : List Byte) (s : State) : State := s.setCall { s.call with pmbuf := out.getD 0 0 }

/-- IS_DISPLAY_ON (R238): a one-byte read of `P_POWER_MODE_CMD` into PMBUF; every error is `ok(false)`, a refusal is
passed on. PMBUF is internal, so no address check applies, no host memory is written, and no host address describes it. -/
def execIsDisplayOn (s : State) : Host.Outcome State Fault Refusal :=
  match (readFlow s.params.powerModeCmd 0 1 true (s.enter .check)).andThen
      fun s1 => .go (s1.keepPm (s1.readOut s.params.powerModeCmd 1)) with
  | .go s1 => .next (s1.returnOk (some (powerModeOn s1.params s1.call.pmbuf)))
  | .err _ s1 => .next (s1.returnOk (some false))
  | .refuse r s1 => .next (s1.refuseCall r)
  | .hang => .fault .transferHang

/-- A reserved selector (R239): `Refused(ReservedOp)`, no transport event, in every phase (R277's order; DEDUCED, log 28). -/
def execReservedOp (_op : BitVec 3) (_c : Byte) (s : State) : Host.Outcome State Fault Refusal :=
  .next ((s.enter .check).refuseCall .reservedOp)

end Sys2Proof.Machine
end

