-- ==== Sys2Proof/Machine/Dispatch.lean ====
section
/-! DEFINITION. One arm per row of spec/opcode_table.json (45_dispatcher.md R240). -/

namespace Sys2Proof.Machine

def exec (i : Instr) (s : State) : Host.Outcome State Fault Refusal :=
  match i with
  | .configure => Sys2Proof.Machine.execConfigure s
  | .sendCommand cmd => Sys2Proof.Machine.execSendCommand cmd s
  | .readCommand cmd => Sys2Proof.Machine.execReadCommand cmd s
  | .isDisplayOn => Sys2Proof.Machine.execIsDisplayOn s
  | .reservedOp op c => Sys2Proof.Machine.execReservedOp op c s
  | .classify cmd => Sys2Proof.Machine.execClassify cmd s
  | .n9Cmd c => Sys2Proof.Machine.execN9Cmd c s
  | .n9Data d => Sys2Proof.Machine.execN9Data d s
  | .e8Cmd c => Sys2Proof.Machine.execE8Cmd c s
  | .e8Full b0 b1 b2 b3 b4 b5 b6 b7 => Sys2Proof.Machine.execE8Full b0 b1 b2 b3 b4 b5 b6 b7 s
  | .e8Part1 b0 => Sys2Proof.Machine.execE8Part1 b0 s
  | .e8Part2 b0 b1 => Sys2Proof.Machine.execE8Part2 b0 b1 s
  | .e8Part3 b0 b1 b2 => Sys2Proof.Machine.execE8Part3 b0 b1 b2 s
  | .e8Part4 b0 b1 b2 b3 => Sys2Proof.Machine.execE8Part4 b0 b1 b2 b3 s
  | .e8Part5 b0 b1 b2 b3 b4 => Sys2Proof.Machine.execE8Part5 b0 b1 b2 b3 b4 s
  | .e8Part6 b0 b1 b2 b3 b4 b5 => Sys2Proof.Machine.execE8Part6 b0 b1 b2 b3 b4 b5 s
  | .e8Part7 b0 b1 b2 b3 b4 b5 b6 => Sys2Proof.Machine.execE8Part7 b0 b1 b2 b3 b4 b5 b6 s
  | .o3Cmd c => Sys2Proof.Machine.execO3Cmd c s
  | .o3Data8 d => Sys2Proof.Machine.execO3Data8 d s
  | .o3Data16 d => Sys2Proof.Machine.execO3Data16 d s
  | .o3Rd8 r => Sys2Proof.Machine.execO3Rd8 r s
  | .o3Rddc3 x a b c y => Sys2Proof.Machine.execO3Rddc3 x a b c y s
  | .o3Rddc4 x a b c d y => Sys2Proof.Machine.execO3Rddc4 x a b c d y s

end Sys2Proof.Machine
end

