-- ==== Sys2Proof/Machine/Fetch.lean ====
section
/-! DEFINITION. How the next operation comes to the block: the host's requests, one at a time (60_exceptions.md R283). -/

namespace Sys2Proof.Machine

/-- What the host writes into its memory before it makes a request: bytes at addresses of `P_ADDR_W` bits (R50). -/
def hostStores (w : Nat) : Memory → List Host.Cell → Memory
  | m, [] => m
  | m, (a, b) :: rest => hostStores w (m.write (a % 2 ^ w) b) rest

/-- The block takes the host's next request: it leaves the queue, the host's own stores are in memory, and its operands
are the call's (R81). -/
def State.accept (r : Request) (rest : List Request) (s : State) : State :=
  { s with pending := rest, args := r.args, mem := hostStores s.params.addrW s.mem r.stores }

/-- The control bit of a stream that goes straight to the emulated encoder (log 29); none at the ports of the rows. -/
def streamControl : Port → Option Bool
  | .e8Stream c => some c
  | .hostSel | .cmd8 | .w9 | .e8 | .o3b _ | .o3w | .rd | .rddc => none

/-- The request that carries an encoded operation, with the operands at hand and no store. -/
def State.requestOf (s : State) (port : Port) (bytes : List Byte) : Request := ⟨[], port, bytes, s.args⟩

end Sys2Proof.Machine
end

