-- ==== Sys2Proof/Machine/Step.lean ====
section
/-! DEFINITION. One step: the next request of the host is decoded and carried out. A host call is atomic (00_scope.md R5),
so a step is a whole call. A stream for the emulated encoder is no encoded operation and goes to it as it is (log 29). -/

namespace Sys2Proof.Machine

/-- One step. With no request the block waits in IDLE and nothing changes (log 1). -/
def step (s : State) : Host.Outcome State Fault Refusal :=
  match s.pending with
  | [] => .next s
  | r :: rest =>
    match Sys2Proof.decode r.port r.bytes with
    | .error _ =>
      match streamControl r.port with
      | some c => execE8Stream c r.bytes (s.accept r rest)
      | none => .refused .noSuchRow
    | .ok i => if i.wellFormed then exec i (s.accept r rest) else .refused .illFormed

/-- A table word placed as the host's next request, with the operands at hand (log 1, log 16); a word of a width the
table does not have places nothing. -/
def State.withFetchWord (s : State) (nbits w : Nat) : State :=
  match Sys2Proof.tableBytes nbits w with
  | none => s
  | some (port, bytes) => { s with pending := s.requestOf port bytes :: s.pending }

end Sys2Proof.Machine
end

