-- ==== Sys2Proof/Machine/RefDecode.lean ====
section
/-! DEFINITION. The reference decoder (42_option1_emulated.md R153) and the bits on the wire (20_memory.md R58). "It is
not part of the block": no instruction uses it; statements do. -/

namespace Sys2Proof.Machine

/-- The value `{F[0], F[1], ...}` of a byte list, F[0] most significant (R153). -/
def joined (l : List Byte) : Nat := l.foldl (fun g b => g * 256 + b.toNat) 0

/-- `WORDS(F)` (R153): the whole 9-bit words of a frame of 8 or 9 bytes, first on the wire first, as (C, byte). -/
def frameWords (l : List Byte) : List (Bool × Byte) :=
  (List.range (8 * l.length / 9)).map fun i =>
    ((joined l).testBit (8 * l.length - 1 - 9 * i), BitVec.ofNat 8 (joined l >>> (8 * l.length - 9 - 9 * i)))

/-- The frames of one emulated data transfer (R153): itself if it has 8 bytes, else its 9-byte pieces. -/
def framesFuel : Nat → List Byte → List (List Byte)
  | 0, _ => []
  | fuel + 1, x => if x.length ≤ 9 then [x] else x.take 9 :: framesFuel fuel (x.drop 9)

/-- The data words of a frame: the longest prefix of its words whose control bits are all 1 (R153). -/
def dataWords (frame : List Byte) : List (Bool × Byte) := (frameWords frame).takeWhile fun w => w.1

/-- `REF_DECODE(C, transfers)` (R153), over the transfers' bytes. -/
def refDecode (c : Bool) (xs : List (List Byte)) : List (Bool × Byte) :=
  if c then xs.flatMap fun x => (framesFuel x.length x).flatMap dataWords
  else xs.map fun x => (false, x.getD 8 0)

/-- The bytes of an 8-bit word list; none for other widths. -/
def Words.bytes : Words → List Byte
  | .w8 ws => ws
  | .w9 _ => []
  | .w16 _ => []

/-- The bits of one word, most significant first (R58). -/
def wordBits {w : Nat} (v : BitVec w) : List Bool := (List.range w).map fun i => v.getLsbD (w - 1 - i)

/-- The bits a transfer puts on the wire, each word most significant bit first (R58). -/
def wireBits : Words → List Bool
  | .w8 ws => ws.flatMap wordBits
  | .w9 ws => ws.flatMap wordBits
  | .w16 ws => ws.flatMap wordBits

end Sys2Proof.Machine
end

