-- ==== Sys2Proof/Safety.lean ====
section
/-! DEFINITION. The terms the statements use: the invariant every step keeps, what a call leaves alone, and the plan of
transport events that 41, 42, 43 and 45 give a write call. -/

namespace Sys2Proof.Machine

/-- The read set obeys CONFIGURE's constraints (10_state.md R23). -/
def State.readSetLegal (s : State) : Prop :=
  (s.readsetValid = false → s.readsetMap = 0) ∧ setCard s.readsetMap ≤ Config.readsetMax ∧
    setHas s.readsetMap s.params.readsetSentinel = false

/-- What holds between calls: host memory is in its canonical form and inside the address space (20_memory.md R50); SEQ
is IDLE (R30); no per-call state is held and no scratch is allocated (R20, R66); PHASE never rests in CONFIGURED (R21);
and a configured read set is legal (R23). -/
structure State.Inv (s : State) : Prop where
  memWf : s.mem.wf = true
  memInSpace : s.mem.inSpace s.params.addrW = true
  seqIdle : s.seq = .idle
  callIdle : s.call = Call.idle
  phaseRests : s.phase ≠ .configured
  readSet : s.phase = .ready → s.readSetLegal

/-- The configuration is the same: the parameters, PHASE, VARIANT and READSET (R20 to R23). -/
def sameConfig (s t : State) : Prop :=
  t.params = s.params ∧ t.phase = s.phase ∧ t.variant = s.variant ∧ t.readsetValid = s.readsetValid ∧
    t.readsetMap = s.readsetMap

/-- The host's side is the same: its requests and operands. -/
def sameHost (s t : State) : Prop := t.pending = s.pending ∧ t.args = s.args

/-- The block is at rest: SEQ in IDLE, no per-call state held, no scratch allocated (R30, R66, R273). -/
def atRest (t : State) : Prop := t.seq = .idle ∧ t.call = Call.idle

/-- Every byte outside `[dst, dst + n)` reads as before (20_memory.md R57). -/
def memSameOutside (dst n : Nat) (s t : State) : Prop :=
  ∀ a, ¬ (dst ≤ a ∧ a < dst + n) → t.mem.read a = s.mem.read a

/-- The next `m` transfers complete. -/
def transfersComplete (s : State) (m : Nat) : Prop := ∀ j, j < m → ∃ raw, s.xferAnswer j = .ok raw

/-- The level of the select line after some events: the last one driven, else the one before (R31). -/
def selAfter (l : Level) : List Event → Level
  | [] => l
  | .sel l' :: es => selAfter l' es
  | .xfer _ _ _ :: es => selAfter l es

/-- What a call asks of the transport port: a select or a write transfer. -/
inductive Action where
  | sel (l : Level)
  | write (ws : Words)
deriving DecidableEq, Repr

/-- How a run of actions ends. -/
inductive Ending where
  | done
  | failed (e : TransportError)
  | blocked
deriving DecidableEq, Repr

/-- The events of a list of actions, one at a time and in order, the j-th transfer answered by `ans j`; the first failing
transfer is the last event (R60, R125, R150, R186, R273). -/
def play (ans : Nat → XferAnswer) : Nat → List Action → List Event × Ending
  | _, [] => ([], .done)
  | j, .sel l :: as => (.sel l :: (play ans j as).1, (play ans j as).2)
  | j, .write ws :: as =>
    match ans j with
    | .ok _ =>
      (.xfer .default (.write ws) (.ok []) :: (play ans (j + 1) as).1, (play ans (j + 1) as).2)
    | .err e r => ([.xfer .default (.write ws) (.err e (min r ws.length))], .failed e)
    | .never => ([], .blocked)

/-- Number of transfers among a list of events: the answers used up. -/
def xferCount : List Event → Nat
  | [] => 0
  | .sel _ :: es => xferCount es
  | .xfer _ _ _ :: es => xferCount es + 1

/-- `k` answers used. -/
def Feed.skip {α : Type} (k : Nat) (f : Feed α) : Feed α := ⟨f.script.drop k, f.count + k⟩

/-- The source bytes of a write call (20_memory.md R50). -/
def State.sourceBytes (s : State) : List Byte := s.mem.readBytes s.argAddr s.argLen

/-- Whether the data phase of an Option 3 write is 16 bits wide: only for `P_MEMWRITE_CMD`, and only when the transport
can do 16-bit words (R182). -/
def State.wide (s : State) (cmd : Byte) : Prop := cmd = s.params.memWriteCmd ∧ s.supports16 = true

/-- The events R120, R144, R146 and R180 give a write call that passes its checks: the command stream, then the data
stream in chunks. -/
def State.writePlan (s : State) (cmd : Byte) : List Action :=
  match s.variant with
  | .option1 =>
    if s.supports9 then
      .write (.w9 [0#1 ++ cmd]) :: (transfers (.n9 true) s.maxXfer s.sourceBytes).map .write
    else
      .write (.w8 (List.replicate 8 0 ++ [cmd])) :: (transfers .e8 s.maxXfer s.sourceBytes).map .write
  | .option3 =>
    .sel .cmd :: .write (.w8 [cmd]) ::
      (if s.argLen = 0 then []
       else .sel .data ::
        (transfers (if cmd = s.params.memWriteCmd ∧ s.supports16 = true then .o3x16 s.params.hostEndian else .o3x8)
          s.maxXfer s.sourceBytes).map .write)

/-- A write call that every check of R233 lets through. -/
def State.writePasses (s : State) (cmd : Byte) : Prop :=
  s.fits s.argAddr s.argLen = true ∧
    match s.variant with
    | .option1 => if s.supports9 then 2 ≤ s.maxXfer else 9 ≤ s.maxXfer
    | .option3 => 1 ≤ s.maxXfer ∧ (s.wide cmd → (s.argLen = 0 ∨ 2 ≤ s.maxXfer) ∧ s.argLen % 2 = 0)

/-- The event of a write transfer that completed. -/
def okWrite (ws : Words) : Event := .xfer .default (.write ws) (.ok [])

/-- The events of a read whose two transfers completed: the select line to CMD, the command byte and the read transfer,
both at READ speed, nothing between them (R204, R207, R208). -/
def readEvents (cmd : Byte) (got : List Byte) : List Event :=
  [.sel .cmd, .xfer .read (.write (.w8 [cmd])) (.ok []), .xfer .read (.read got.length) (.ok got)]

/-- How a write call leaves the machine, all but the outside world's answers: its outcome, the events it added, the select
line they leave, and everything else as it was. -/
def writeEnded (s t : State) (es : List Event) (r : CallResult) : Prop :=
  t.result = some r ∧ t.events = s.events ++ es ∧ t.sel = selAfter s.sel es ∧ t.mem = s.mem ∧ sameConfig s t ∧
    sameHost s t ∧ atRest t

/-- How a read call into `[dst, dst + n)` leaves the machine, but for the bytes there and the outside world's answers. -/
def readEnded (dst n : Nat) (s t : State) (es : List Event) (r : CallResult) : Prop :=
  t.result = some r ∧ t.events = s.events ++ es ∧ t.sel = selAfter s.sel es ∧ memSameOutside dst n s t ∧
    sameConfig s t ∧ sameHost s t ∧ atRest t

/-- The call ended in CHECK: SEQ went from there straight to DONE, with no transport event (R273, R277). -/
def endedInCheck (s t : State) : Prop := t.trail = [.check, .done] ∧ t.events = s.events

/-- The state in which a leaf operation ends that began with SEQ in `q`, added the events `es` and had the outcome `r`:
nothing else changes, not one byte of memory. -/
def leafEnd (q : Seq) (es : List Event) (r : CallResult) (s : State) : State :=
  { s with
    sel := selAfter s.sel es
    seq := .idle
    trail := [q, .done]
    call := Call.idle
    io := { s.io with xfer := s.io.xfer.skip (xferCount es) }
    events := s.events ++ es
    result := some r }

/-- The host operations. -/
def isHostOp : Instr → Bool
  | .configure | .sendCommand _ | .readCommand _ | .isDisplayOn | .reservedOp _ _ => true
  | _ => false

/-- The one transfer a leaf write operation makes, with the select event before it where there is one. -/
def leafPlan : Instr → Option (List Action)
  | .n9Cmd c => some [.write (.w9 [0#1 ++ c])]
  | .n9Data d => some [.write (.w9 [1#1 ++ d])]
  | .o3Cmd c => some [.sel .cmd, .write (.w8 [c])]
  | .o3Data8 d => some [.sel .data, .write (.w8 [d])]
  | .o3Data16 d => some [.sel .data, .write (.w16 [d])]
  | i => if i.port = .e8 then some [.write (.w8 (encode i))] else none

/-- The phase a leaf write operation is in: a command in CMD_PHASE, data in DATA_PHASE (R30). -/
def leafPhase : Instr → Seq
  | .n9Cmd _ | .e8Cmd _ | .o3Cmd _ => .cmdPhase
  | _ => .dataPhase

/-- How many bytes at `dst` an operation may write (R57): the length of a read, 1, 3 or 4 for the read formats, else
none. -/
def destLength (i : Instr) (s : State) : Nat :=
  match i with
  | .readCommand _ => s.argLen
  | .sendCommand cmd => if s.phase = .ready ∧ s.classify cmd = true then s.argLen else 0
  | .o3Rd8 _ => 1
  | .o3Rddc3 _ _ _ _ _ => 3
  | .o3Rddc4 _ _ _ _ _ _ => 4
  | _ => 0

end Sys2Proof.Machine
end

