-- ==== Sys2Proof/Certificates/Slice0/Obligations.lean ====
section
/-! DEFINITION. The statements for the provers. -/

open Sys2Proof Sys2Proof.Machine

/-! Reset, the invariant, and how a step runs an operation. -/

/-- R300, R301, R21, R30 (the values the spec states): a new instance is UNCONFIGURED with SEQ in IDLE and no scratch
allocated. No event has happened yet (the record of events is the model's: log 18). -/
def Obligations.ResetIsUnconfiguredAndIdle : Prop :=
  State.reset.phase = .unconfigured ∧ State.reset.seq = .idle ∧ State.reset.call.allocated = false ∧
    State.reset.events = []

/-- The invariant of Safety.lean holds of a new instance. -/
def Obligations.ResetMeetsInvariant : Prop := State.reset.Inv

/-- From every state that meets the invariant, whatever the host asks and the transport answers, a step leads to a state
that meets it: memory stays canonical and inside the address space (R50), SEQ is back in IDLE with nothing held and
nothing allocated (R30, R66, R273), PHASE never rests in CONFIGURED (R21), and a configured read set is legal (R23). -/
def Obligations.StepKeepsInvariant : Prop :=
  ∀ s t : State, s.Inv → step s = .next t → t.Inv

/-- R20, R22, R23, R231: once PHASE is READY no step changes PHASE, VARIANT, READSET or a parameter, whatever the call's
outcome. -/
def Obligations.ReadyConfigurationIsPermanent : Prop :=
  ∀ s t : State, s.phase = .ready → step s = .next t → sameConfig s t

/-- A step carries out the next request: where its bytes decode to a well-formed operation, the step is that operation's
meaning in the state in which the block has taken the request off the queue, has its operands, and sees the host's own
stores; bytes of no row are refused by name (log 17), but for a stream given to the emulated encoder, which goes to it as
it is (log 29); with no request the block waits and nothing changes (that a step
is a request is the model's choice: log 1). -/
def Obligations.StepRunsDecodedRequest : Prop :=
  (∀ (s : State) (r : Request) (rest : List Request) (i : Instr), s.pending = r :: rest →
      decode r.port r.bytes = .ok i → i.wellFormed = true →
      step s = exec i { s with pending := rest, args := r.args, mem := hostStores s.params.addrW s.mem r.stores }) ∧
    (∀ (s : State) (r : Request) (rest : List Request) (e : DecodeError), s.pending = r :: rest →
      decode r.port r.bytes = .error e → streamControl r.port = none → step s = .refused .noSuchRow) ∧
    (∀ (s : State) (r : Request) (rest : List Request) (c : Bool), s.pending = r :: rest → r.port = .e8Stream c →
      step s = execE8Stream c r.bytes
        { s with pending := rest, args := r.args, mem := hostStores s.params.addrW s.mem r.stores }) ∧
    ∀ s : State, s.pending = [] → step s = .next s

/-! Encodings. -/

/-- Decoding the encoding of a well-formed operation, at the port of its format, gives it back, for every value of every
field (the rows' patterns: R71 to R74, R77 to R80, R84). -/
def Obligations.DecodeEncodeAgree : Prop :=
  ∀ i : Instr, i.wellFormed = true → decode i.port (encode i) = .ok i

/-- Whatever bytes a port decodes, the operation is well-formed, of that port's formats, and has exactly those bytes as
its encoding: no two encodings stand for one operation and no bit is dropped. -/
def Obligations.EncodeDecodeAgree : Prop :=
  ∀ (p : Port) (bs : List Byte) (i : Instr), decode p bs = .ok i →
    i.wellFormed = true ∧ i.port = p ∧ encode i = bs

/-- Words written out from the spec decode to their rows: VE4 and VE9, VE14 of 95_test_vectors.md, the selectors of P1 and
P3, and a 9-bit word of VN1. -/
def Obligations.SpecWordsDecode : Prop :=
  decode .e8 [0x89, 0x4D, 0, 0, 0, 0, 0, 0] = .ok (.e8Part2 0x12 0x34) ∧
    decode .e8 [0x80, 0x40, 0x20, 0x10, 0x08, 0x04, 0x02, 0x01, 0x00] = .ok (.e8Full 0 0 0 0 0 0 0 0) ∧
    decode .e8 [0, 0, 0, 0, 0, 0, 0, 0, 0x2C] = .ok (.e8Cmd 0x2C) ∧
    decode .hostSel [0x01, 0x11] = .ok (.sendCommand 0x11) ∧
    decode .hostSel [0x02, 0x09] = .ok (.readCommand 0x09) ∧
    decode .w9 [0x01, 0xEF] = .ok (.n9Data 0xEF)

/-! Configuration, the phase gate, the classifier, reserved selectors. -/

/-- R230: CONFIGURE in any other phase than UNCONFIGURED is `Refused(Reconfigure)`; a present read set of more than 255
members or with the sentinel is `Refused(BadReadSet)`; else VARIANT, READSET_VALID and READSET_MAP are written and PHASE
is READY. No transport event, no query, and nothing else changes but the call's outcome (and the sequencer and the
per-call state, of which OperationsEndAtRest speaks). -/
def Obligations.ConfigureConfiguresOnce : Prop :=
  ∀ s : State, ∃ t : State, exec .configure s = .next t ∧
    t = { s with
      phase := t.phase, variant := t.variant, readsetValid := t.readsetValid, readsetMap := t.readsetMap
      seq := t.seq, trail := t.trail, call := t.call, result := t.result } ∧
    (if s.phase ≠ .unconfigured then t.result = some (.refused .reconfigure) ∧ sameConfig s t
     else if ∃ m, s.args.readset = some m ∧ (255 < setCard m ∨ m.getLsbD s.params.readsetSentinel.toNat = true) then
       t.result = some (.refused .badReadSet) ∧ sameConfig s t
     else
       t.result = some (.ok none) ∧ t.phase = .ready ∧
         t.variant = (if s.args.selectPresent then .option3 else .option1) ∧
         t.readsetValid = s.args.readset.isSome ∧
         ∀ v, v < 256 → (t.readsetMap.getLsbD v = true ↔ ∃ m, s.args.readset = some m ∧ m.getLsbD v = true))

/-- R231: every host operation other than CONFIGURE ends `Refused(NotReady)` in CHECK, before any transport event, where
PHASE is not READY; and from READY every outcome of every call leaves PHASE at READY. -/
def Obligations.PhaseGatesHostOperations : Prop :=
  (∀ (i : Instr) (s : State), s.phase ≠ .ready →
      ((∃ cmd, i = .sendCommand cmd) ∨ (∃ cmd, i = .readCommand cmd) ∨ i = .isDisplayOn) →
      ∃ t, exec i s = .next t ∧ t.result = some (.refused .notReady) ∧ endedInCheck s t ∧ sameConfig s t) ∧
    ∀ (i : Instr) (s t : State), s.phase = .ready → exec i s = .next t → t.phase = .ready

/-- R100: CLASSIFY always answers: false where no set is configured, else whether the map has cmd; it writes no state and
issues no transport event. That CLASSIFY is requested by itself is the model's choice (log 2), as are the field its answer
is reported in (log 18) and its answer before CONFIGURE (log 21). -/
def Obligations.ClassifyAnswersMembership : Prop :=
  ∀ (cmd : Byte) (s : State),
    exec (.classify cmd) s =
      .next { s with result := some (.ok (some (if s.readsetValid then s.readsetMap.getLsbD cmd.toNat else false))) }

/-- R239: a reserved selector ends `Refused(ReservedOp)` with no transport event, in every phase (DEDUCED from R277's
order, against R231: log 28); nothing else changes but the sequencer and the per-call state, of which OperationsEndAtRest speaks. -/
def Obligations.ReservedSelectorsAreRefused : Prop :=
  ∀ (op : BitVec 3) (c : Byte) (s : State), ∃ t : State, exec (.reservedOp op c) s = .next t ∧
    t = { s with seq := t.seq, trail := t.trail, call := t.call, result := some (.refused .reservedOp) }

/-! The leaf operations: one word, one frame. What the words are is the spec's; that a row run by itself is a call of its
own, of one transfer, without the checks of a host call, is the model's choice (log 2). -/

/-- R121, R122, R71: N9.CMD sends the one word `{0, cmd}`, N9.DATA the one word `{1, b}`, each in one 9-bit write transfer
at DEFAULT speed (a row by itself: log 2); nothing else changes. -/
def Obligations.NativeWordsAreSent : Prop :=
  ∀ (b : Byte) (s : State) (raw : List Byte), s.xferAnswer 0 = .ok raw →
    exec (.n9Cmd b) s = .next (leafEnd .cmdPhase [okWrite (.w9 [0#1 ++ b])] (.ok none) s) ∧
      exec (.n9Data b) s = .next (leafEnd .dataPhase [okWrite (.w9 [1#1 ++ b])] (.ok none) s)

/-- R144, R73: E8.CMD sends eight zero bytes and the command byte in one 8-bit transfer (a row by itself:
log 2). -/
def Obligations.CommandFrameIsSent : Prop :=
  ∀ (c : Byte) (s : State) (raw : List Byte), s.xferAnswer 0 = .ok raw →
    exec (.e8Cmd c) s = .next (leafEnd .cmdPhase [okWrite (.w8 [0, 0, 0, 0, 0, 0, 0, 0, c])] (.ok none) s)

/-- R141, R142, R72: E8.FULL's PACK is the 72-bit pattern of the table, 9 bytes in one 8-bit transfer (a row by
itself: log 2). -/
def Obligations.FullGroupIsTheTablePattern : Prop :=
  ∀ (b0 b1 b2 b3 b4 b5 b6 b7 : Byte) (s : State) (raw : List Byte), s.xferAnswer 0 = .ok raw →
    exec (.e8Full b0 b1 b2 b3 b4 b5 b6 b7) s =
        .next (leafEnd .dataPhase
          [okWrite (.w8 (bytesOf 9
            (1#1 ++ b0 ++ 1#1 ++ b1 ++ 1#1 ++ b2 ++ 1#1 ++ b3 ++ 1#1 ++ b4 ++ 1#1 ++ b5 ++ 1#1 ++ b6 ++ 1#1 ++ b7)))]
          (.ok none) s)

/-- R141, R143, R74: E8.PARTk's PACK is the 64-bit pattern of the table: k data words, then zeros, 8 bytes in one 8-bit
transfer (a row by itself: log 2). -/
def Obligations.PartialGroupsAreTheTablePatterns : Prop :=
  ∀ (a b c d e f g : Byte) (s : State) (raw : List Byte), s.xferAnswer 0 = .ok raw →
    let sent := fun (v : BitVec 64) => Host.Outcome.next (φ := Fault) (ρ := Refusal)
      (leafEnd .dataPhase [okWrite (.w8 (bytesOf 8 v))] (.ok none) s)
    exec (.e8Part1 a) s = sent (1#1 ++ a ++ 0#55) ∧
      exec (.e8Part2 a b) s = sent (1#1 ++ a ++ 1#1 ++ b ++ 0#46) ∧
      exec (.e8Part3 a b c) s = sent (1#1 ++ a ++ 1#1 ++ b ++ 1#1 ++ c ++ 0#37) ∧
      exec (.e8Part4 a b c d) s = sent (1#1 ++ a ++ 1#1 ++ b ++ 1#1 ++ c ++ 1#1 ++ d ++ 0#28) ∧
      exec (.e8Part5 a b c d e) s = sent (1#1 ++ a ++ 1#1 ++ b ++ 1#1 ++ c ++ 1#1 ++ d ++ 1#1 ++ e ++ 0#19) ∧
      exec (.e8Part6 a b c d e f) s =
        sent (1#1 ++ a ++ 1#1 ++ b ++ 1#1 ++ c ++ 1#1 ++ d ++ 1#1 ++ e ++ 1#1 ++ f ++ 0#10) ∧
      exec (.e8Part7 a b c d e f g) s =
        sent (1#1 ++ a ++ 1#1 ++ b ++ 1#1 ++ c ++ 1#1 ++ d ++ 1#1 ++ e ++ 1#1 ++ f ++ 1#1 ++ g ++ 0#1)

/-- R181, R182, R77, R78: O3.CMD drives the select line to CMD and sends the one byte at 8 bits; O3.DATA8 and O3.DATA16
drive it to DATA and send the one word at 8 and at 16 bits (rows by themselves: log 2). -/
def Obligations.OptionThreeWordsAreSent : Prop :=
  ∀ (b : Byte) (w : Word16) (s : State) (raw : List Byte), s.xferAnswer 0 = .ok raw →
    exec (.o3Cmd b) s = .next (leafEnd .cmdPhase [.sel .cmd, okWrite (.w8 [b])] (.ok none) s) ∧
      exec (.o3Data8 b) s = .next (leafEnd .dataPhase [.sel .data, okWrite (.w8 [b])] (.ok none) s) ∧
      exec (.o3Data16 w) s = .next (leafEnd .dataPhase [.sel .data, okWrite (.w16 [w])] (.ok none) s)

/-- R273, R274, R280, R65: where the one transfer of a leaf write operation answers `err(e)` the call ends with
`err(BusError, e)`, e unchanged, the failing transfer recorded with the prefix that reached the bus; where it never
returns the machine stops (DEDUCED, log 13). That a row by itself is a call is the model's choice (log 2). -/
def Obligations.LeafTransferFailures : Prop :=
  ∀ (i : Instr) (plan : List Action) (s : State), leafPlan i = some plan →
    (∀ e r, s.xferAnswer 0 = .err e r →
        exec i s = .next (leafEnd (leafPhase i) (play s.xferAnswer 0 plan).1 (.err (.busError e)) s)) ∧
      (s.xferAnswer 0 = .never → exec i s = .fault .transferHang)

/-- R205, R206, R57: O3.RD8 stores the returned byte unchanged at dst, O3.RDDC3 and O3.RDDC4 their three and four result
bytes, whatever the dummy bit and the ignored bits are; no byte outside the destination changes, no event happens. That a
read format by itself decodes to the request's destination is the model's choice (log 2). -/
def Obligations.ReadFormatsDecodeIntoMemory : Prop :=
  ∀ (x : BitVec 1) (a b c d : Byte) (y : BitVec 7) (s : State), s.mem.wf = true →
    let stored := fun (i : Instr) (out : List Byte) => s.argAddr + out.length ≤ 2 ^ s.params.addrW →
      ∃ t, exec i s = .next t ∧ readEnded s.argAddr out.length s t [] (.ok none) ∧
        t.mem.readBytes s.argAddr out.length = out
    stored (.o3Rd8 a) [a] ∧ stored (.o3Rddc3 x a b c y) [a, b, c] ∧ stored (.o3Rddc4 x a b c d y) [a, b, c, d]

/-- R51 for the read formats by themselves (log 2): a destination that leaves the address space is `Refused(AddrRange)`. -/
def Obligations.ReadFormatsOutsideSpaceAreRefused : Prop :=
  ∀ (i : Instr) (s : State), s.mem.wf = true → (i.port = .rd ∨ i.port = .rddc) →
    2 ^ s.params.addrW < s.argAddr + destLength i s →
    ∃ t, exec i s = .next t ∧ readEnded s.argAddr (destLength i s) s t [] (.refused .addrRange)

/-! SEND_COMMAND. -/

/-- R120, R121: the command stream through the native encoder is exactly one transfer, of the one word that equals cmd,
where T is at least 2. -/
def Obligations.NativeCommandStreamIsOneTransfer : Prop :=
  ∀ (cmd : Byte) (s : State) (raw : List Byte), 2 ≤ s.call.t → s.xferAnswer 0 = .ok raw →
    ∃ t, n9Encode (Stream.command cmd) s = .go t ∧ t.events = s.events ++ [okWrite (.w9 [cmd.setWidth 9])]

/-- R120, R233, R234: on route N9, with T of at least 2, scratch allocated and every transfer answered ok, SEND_COMMAND
sends the command word and then the data words in chunks, returns ok, and changes nothing else. -/
def Obligations.SendNativeCompletes : Prop :=
  ∀ (cmd : Byte) (s : State), s.phase = .ready → s.classify cmd = false → s.variant = .option1 →
    s.supports9 = true → s.fits s.argAddr s.argLen = true → 2 ≤ s.maxXfer → s.allocAnswer = true →
    transfersComplete s (1 + (transfers (.n9 true) s.maxXfer s.sourceBytes).length) →
    ∃ t, exec (.sendCommand cmd) s = .next t ∧
      writeEnded s t (okWrite (.w9 [0#1 ++ cmd]) :: (transfers (.n9 true) s.maxXfer s.sourceBytes).map okWrite)
        (.ok none)

/-- R144, R146, R233, R234: on route E8, with T of at least 9, scratch allocated and every transfer answered ok,
SEND_COMMAND sends the command frame and then the packed data in chunks, returns ok, and changes nothing else. -/
def Obligations.SendEmulatedCompletes : Prop :=
  ∀ (cmd : Byte) (s : State), s.phase = .ready → s.classify cmd = false → s.variant = .option1 →
    s.supports9 = false → s.fits s.argAddr s.argLen = true → 9 ≤ s.maxXfer → s.allocAnswer = true →
    transfersComplete s (1 + (transfers .e8 s.maxXfer s.sourceBytes).length) →
    ∃ t, exec (.sendCommand cmd) s = .next t ∧
      writeEnded s t
        (okWrite (.w8 [0, 0, 0, 0, 0, 0, 0, 0, cmd]) :: (transfers .e8 s.maxXfer s.sourceBytes).map okWrite) (.ok none)

/-- R180, R182, R187, R233: on route O3, with T of at least 1 (of at least 2 and an even length for a 16-bit data phase),
scratch allocated and every transfer answered ok, SEND_COMMAND drives CMD and sends the command byte, and where there are
parameters drives DATA and sends them at the width R182 gives; it returns ok and changes nothing else. -/
def Obligations.SendOptionThreeCompletes : Prop :=
  ∀ (cmd : Byte) (s : State) (f : Framing), s.phase = .ready → s.classify cmd = false → s.variant = .option3 →
    s.writePasses cmd → s.allocAnswer = true →
    f = (if cmd = s.params.memWriteCmd ∧ s.supports16 = true then .o3x16 s.params.hostEndian else .o3x8) →
    transfersComplete s (1 + (transfers f s.maxXfer s.sourceBytes).length) →
    ∃ t, exec (.sendCommand cmd) s = .next t ∧
      writeEnded s t
        ([.sel .cmd, okWrite (.w8 [cmd])] ++
          (if s.argLen = 0 then [] else .sel .data :: (transfers f s.maxXfer s.sourceBytes).map okWrite))
        (.ok none)

/-- R60, R64, R125, R150, R186, R233, R273, R274: whatever the transport answers, a write call that passes its checks and
gets its scratch does exactly the events of its plan up to and with the first failing transfer, and its outcome is ok, or
BusError with that transfer's error, or the machine stops where a transfer never returns (R280; DEDUCED, log 13). Nothing
else changes. -/
def Obligations.WriteCallRefinesPlan : Prop :=
  ∀ (cmd : Byte) (s : State), s.phase = .ready → s.classify cmd = false → s.writePasses cmd → s.allocAnswer = true →
    match (play s.xferAnswer 0 (s.writePlan cmd)).2 with
    | .done => ∃ t, exec (.sendCommand cmd) s = .next t ∧
        writeEnded s t (play s.xferAnswer 0 (s.writePlan cmd)).1 (.ok none)
    | .failed e => ∃ t, exec (.sendCommand cmd) s = .next t ∧
        writeEnded s t (play s.xferAnswer 0 (s.writePlan cmd)).1 (.err (.busError e))
    | .blocked => exec (.sendCommand cmd) s = .fault .transferHang

/-- R124: a call whose route is N9 and whose T is below 2 fails with InvalidArgument in CHECK, before any event. -/
def Obligations.NativeUndersizedIsInvalid : Prop :=
  ∀ (cmd : Byte) (s : State), s.phase = .ready → s.classify cmd = false → s.fits s.argAddr s.argLen = true →
    s.variant = .option1 → s.supports9 = true → s.maxXfer < 2 →
    ∃ t, exec (.sendCommand cmd) s = .next t ∧ writeEnded s t [] (.err .invalidArgument) ∧ endedInCheck s t

/-- R147: a call whose route is E8 and whose T is below 9 fails with InvalidArgument in CHECK, before any event, with
parameters or without. -/
def Obligations.EmulatedUndersizedIsInvalid : Prop :=
  ∀ (cmd : Byte) (s : State), s.phase = .ready → s.classify cmd = false → s.fits s.argAddr s.argLen = true →
    s.variant = .option1 → s.supports9 = false → s.maxXfer < 9 →
    ∃ t, exec (.sendCommand cmd) s = .next t ∧ writeEnded s t [] (.err .invalidArgument) ∧ endedInCheck s t

/-- R184: a write call with route O3 fails with InvalidArgument in CHECK, before any event, where T is below 1, or the data
phase is 16-bit with n > 0 and T is below 2. -/
def Obligations.OptionThreeUndersizedIsInvalid : Prop :=
  ∀ (cmd : Byte) (s : State), s.phase = .ready → s.classify cmd = false → s.fits s.argAddr s.argLen = true →
    s.variant = .option3 → (s.maxXfer < 1 ∨ (s.wide cmd ∧ 0 < s.argLen ∧ s.maxXfer < 2)) →
    ∃ t, exec (.sendCommand cmd) s = .next t ∧ writeEnded s t [] (.err .invalidArgument) ∧ endedInCheck s t

/-- R183: where the data phase would be 16-bit and n is odd (and T is large enough, which is tested first: R277), the call
ends `Refused(OddLength16)` in CHECK, before any event. -/
def Obligations.OddWideLengthIsRefused : Prop :=
  ∀ (cmd : Byte) (s : State), s.phase = .ready → s.classify cmd = false → s.fits s.argAddr s.argLen = true →
    s.variant = .option3 → 2 ≤ s.maxXfer → s.wide cmd → s.argLen % 2 = 1 →
    ∃ t, exec (.sendCommand cmd) s = .next t ∧ writeEnded s t [] (.refused .oddLength16) ∧ endedInCheck s t

/-- R51, R277: a call whose buffer of n > 0 bytes leaves the address space is `Refused(AddrRange)` in CHECK, before any
event: a write leaves memory as it was, a read may leave anything in the destination. -/
def Obligations.BufferOutsideSpaceIsRefused : Prop :=
  ∀ (cmd : Byte) (s : State), s.phase = .ready → s.mem.wf = true → 0 < s.argLen →
    2 ^ s.params.addrW < s.argAddr + s.argLen →
    (∃ t, exec (.readCommand cmd) s = .next t ∧
        readEnded s.argAddr s.argLen s t [] (.refused .addrRange) ∧ endedInCheck s t) ∧
      (s.classify cmd = false →
        ∃ t, exec (.sendCommand cmd) s = .next t ∧ writeEnded s t [] (.refused .addrRange) ∧ endedInCheck s t) ∧
      (s.classify cmd = true →
        ∃ t, exec (.sendCommand cmd) s = .next t ∧
          readEnded s.argAddr s.argLen s t [] (.refused .addrRange) ∧ endedInCheck s t)

/-- R275, R276: a write call or an Option 3 read that passes every test of CHECK and gets no scratch ends with
ResourceExhausted in ALLOC, before any event. -/
def Obligations.AllocationFailureIsResourceExhausted : Prop :=
  ∀ (cmd : Byte) (s : State), s.phase = .ready → s.mem.wf = true → s.allocAnswer = false →
    (s.classify cmd = false → s.writePasses cmd →
        ∃ t, exec (.sendCommand cmd) s = .next t ∧ writeEnded s t [] (.err .resourceExhausted) ∧
          t.trail = [.check, .alloc, .done]) ∧
      (s.classify cmd = true → s.variant = .option3 → s.fits s.argAddr s.argLen = true →
        (if isDcCmd s.params cmd then s.argLen = 3 ∨ s.argLen = 4 else 0 < s.argLen) →
        ∃ t, exec (.readCommand cmd) s = .next t ∧
          readEnded s.argAddr s.argLen s t [] (.err .resourceExhausted) ∧ t.trail = [.check, .alloc, .done])

/-- R235: where cmd is classified as a read, SEND_COMMAND is carried out exactly as READ_COMMAND on the same buffer; on
Option 1 it fails with Unsupported (where the buffer lies in the address space, which is tested first: R277). -/
def Obligations.ClassifiedSendIsARead : Prop :=
  ∀ (cmd : Byte) (s : State), s.phase = .ready → s.classify cmd = true →
    exec (.sendCommand cmd) s = exec (.readCommand cmd) s ∧
      (s.variant = .option1 → s.fits s.argAddr s.argLen = true →
        ∃ t, exec (.sendCommand cmd) s = .next t ∧ t.result = some (.err .unsupported) ∧ t.events = s.events)

/-! READ_COMMAND. -/

/-- R200, R206, R236, R57: an Option 3 read of a command of the read set that is no dummy-clock command, of n > 0 bytes
inside the address space, with scratch and both transfers answered ok, returns ok with the n bytes received in
`dst[0..n)`, unchanged; no byte outside changes, nor anything else. -/
def Obligations.ReadCopiesBytes : Prop :=
  ∀ (cmd : Byte) (s : State) (r0 raw : List Byte), s.phase = .ready → s.mem.wf = true → s.classify cmd = true →
    s.variant = .option3 → isDcCmd s.params cmd = false → 0 < s.argLen → s.fits s.argAddr s.argLen = true →
    s.allocAnswer = true → s.xferAnswer 0 = .ok r0 → s.xferAnswer 1 = .ok raw →
    ∃ t got, exec (.readCommand cmd) s = .next t ∧ got.length = s.argLen ∧
      (∀ i, i < s.argLen → i < raw.length → got.getD i 0 = raw.getD i 0) ∧
      readEnded s.argAddr s.argLen s t (readEvents cmd got) (.ok none) ∧
      t.mem.readBytes s.argAddr s.argLen = got

/-- R200, R202, R203, R205: a dummy-clock read of 3 or 4 bytes asks for one raw byte more, and result byte i is
`{raw[i][6:0], raw[i+1][7]}`. -/
def Obligations.DummyClockReadShifts : Prop :=
  ∀ (cmd : Byte) (s : State) (r0 raw : List Byte), s.phase = .ready → s.mem.wf = true → s.classify cmd = true →
    s.variant = .option3 → (cmd = s.params.dcCmds.first ∨ cmd = s.params.dcCmds.second) → (s.argLen = 3 ∨ s.argLen = 4) →
    s.fits s.argAddr s.argLen = true → s.allocAnswer = true → s.xferAnswer 0 = .ok r0 → s.xferAnswer 1 = .ok raw →
    ∃ t got, exec (.readCommand cmd) s = .next t ∧ got.length = s.argLen + 1 ∧
      (∀ i, i < s.argLen + 1 → i < raw.length → got.getD i 0 = raw.getD i 0) ∧
      readEnded s.argAddr s.argLen s t (readEvents cmd got) (.ok none) ∧
      ∀ i, i < s.argLen → t.mem.read (s.argAddr + i) =
        ((got.getD i 0).extractLsb' 0 7 ++ (got.getD (i + 1) 0).extractLsb' 7 1 : BitVec 8)

/-- R201, R236, R237: a read of a command that is not in the read set, any read with no set configured, and any read on
Option 1 end with Unsupported in CHECK, before any event. -/
def Obligations.UnsupportedReads : Prop :=
  ∀ (cmd : Byte) (s : State), s.phase = .ready → s.mem.wf = true → s.fits s.argAddr s.argLen = true →
    (s.readsetValid = false ∨ s.classify cmd = false ∨ s.variant = .option1) →
    ∃ t, exec (.readCommand cmd) s = .next t ∧
      readEnded s.argAddr s.argLen s t [] (.err .unsupported) ∧ endedInCheck s t

/-- R202: a dummy-clock command with any length but 3 and 4, 0 among them, fails with InvalidArgument in CHECK, before any
event. -/
def Obligations.DummyClockLengthIsChecked : Prop :=
  ∀ (cmd : Byte) (s : State), s.phase = .ready → s.mem.wf = true → s.fits s.argAddr s.argLen = true →
    s.classify cmd = true → s.variant = .option3 → (cmd = s.params.dcCmds.first ∨ cmd = s.params.dcCmds.second) →
    s.argLen ≠ 3 → s.argLen ≠ 4 →
    ∃ t, exec (.readCommand cmd) s = .next t ∧
      readEnded s.argAddr s.argLen s t [] (.err .invalidArgument) ∧ endedInCheck s t

/-- R209: a normal read of length 0 ends `Refused(ZeroRead)` in CHECK, before any event. -/
def Obligations.ZeroLengthReadIsRefused : Prop :=
  ∀ (cmd : Byte) (s : State), s.phase = .ready → s.mem.wf = true → s.classify cmd = true → s.variant = .option3 →
    cmd ≠ s.params.dcCmds.first → cmd ≠ s.params.dcCmds.second → s.argLen = 0 →
    ∃ t, exec (.readCommand cmd) s = .next t ∧ readEnded s.argAddr 0 s t [] (.refused .zeroRead) ∧ endedInCheck s t

/-- R200, R204, R273, R274: a read whose command transfer fails ends with its error after that transfer; one whose read
transfer fails ends with that error after both; SEL is CMD in both cases, and a transfer that never returns stops the
machine (R280; DEDUCED, log 13). -/
def Obligations.ReadBusErrors : Prop :=
  ∀ (cmd : Byte) (s : State), s.phase = .ready → s.mem.wf = true → s.classify cmd = true → s.variant = .option3 →
    (if isDcCmd s.params cmd then s.argLen = 3 ∨ s.argLen = 4 else 0 < s.argLen) →
    s.fits s.argAddr s.argLen = true → s.allocAnswer = true →
    let n := if isDcCmd s.params cmd then s.argLen + 1 else s.argLen
    (∀ e r, s.xferAnswer 0 = .err e r →
        ∃ t, exec (.readCommand cmd) s = .next t ∧
          readEnded s.argAddr s.argLen s t
            [.sel .cmd, .xfer .read (.write (.w8 [cmd])) (.err e (min r 1))] (.err (.busError e))) ∧
      (∀ r0 e r, s.xferAnswer 0 = .ok r0 → s.xferAnswer 1 = .err e r →
        ∃ t, exec (.readCommand cmd) s = .next t ∧
          readEnded s.argAddr s.argLen s t
            [.sel .cmd, .xfer .read (.write (.w8 [cmd])) (.ok []), .xfer .read (.read n) (.err e (min r n))]
            (.err (.busError e))) ∧
      (s.xferAnswer 0 = .never → exec (.readCommand cmd) s = .fault .transferHang) ∧
      (∀ r0, s.xferAnswer 0 = .ok r0 → s.xferAnswer 1 = .never →
        exec (.readCommand cmd) s = .fault .transferHang)

/-! IS_DISPLAY_ON. -/

/-- R238: on Option 3, with the power-mode command in the read set and not a dummy-clock command, scratch and both
transfers answered ok, the answer is whether the masked byte equals the expected value; no host memory is written. -/
def Obligations.DisplayOnComparesMaskedByte : Prop :=
  ∀ (s : State) (r0 raw : List Byte) (b : Byte), s.phase = .ready → s.variant = .option3 →
    s.classify s.params.powerModeCmd = true → isDcCmd s.params s.params.powerModeCmd = false → s.allocAnswer = true →
    s.xferAnswer 0 = .ok r0 → s.xferAnswer 1 = .ok (b :: raw) →
    ∃ t, exec .isDisplayOn s = .next t ∧
      writeEnded s t (readEvents s.params.powerModeCmd [b])
        (.ok (some (decide (b &&& s.params.pmMask = s.params.pmExpect))))

/-- R238: every error of the power-mode read is `ok(false)`: no read set, a command not in it, Option 1 and a dummy-clock
power-mode command without any event; a failed allocation; a failing command or read transfer. A transfer that never
returns is no error: it stops the machine (R280; DEDUCED, log 13). -/
def Obligations.DisplayOnErrorsAreFalse : Prop :=
  ∀ s : State, s.phase = .ready →
    ((s.variant = .option1 ∨ s.classify s.params.powerModeCmd = false ∨ isDcCmd s.params s.params.powerModeCmd = true ∨
          s.allocAnswer = false) →
        ∃ t, exec .isDisplayOn s = .next t ∧ writeEnded s t [] (.ok (some false))) ∧
      (s.variant = .option3 → s.classify s.params.powerModeCmd = true →
        isDcCmd s.params s.params.powerModeCmd = false → s.allocAnswer = true →
        ∀ e r, (s.xferAnswer 0 = .err e r ∨ ∃ r0, s.xferAnswer 0 = .ok r0 ∧ s.xferAnswer 1 = .err e r) →
          ∃ t, exec .isDisplayOn s = .next t ∧ t.result = some (.ok (some false)) ∧ t.mem = s.mem ∧ t.sel = .cmd) ∧
      (s.variant = .option3 → s.classify s.params.powerModeCmd = true →
        isDcCmd s.params s.params.powerModeCmd = false → s.allocAnswer = true →
        (s.xferAnswer 0 = .never ∨ ∃ r0, s.xferAnswer 0 = .ok r0 ∧ s.xferAnswer 1 = .never) →
          exec .isDisplayOn s = .fault .transferHang)

/-- R238, R278: IS_DISPLAY_ON never reports an error, in any state. -/
def Obligations.DisplayOnNeverFails : Prop :=
  ∀ (s t : State) (k : ErrKind), exec .isDisplayOn s = .next t → t.result ≠ some (.err k)

/-! Frames over all operations. -/

/-- R50, R57, R233: an operation changes no byte of host memory but those of the destination of a read: `dst[0..n)` for a
read call, 1, 3 or 4 bytes at dst for a read format, none for every other operation. -/
def Obligations.MemoryChangesOnlyInDestination : Prop :=
  ∀ (i : Instr) (s t : State), s.mem.wf = true → exec i s = .next t →
    memSameOutside s.argAddr (destLength i s) s t

/-- R20 to R23, R273: no operation but CONFIGURE changes the configuration, and none changes the host's requests or
operands, whatever its outcome. -/
def Obligations.OnlyConfigureChangesConfiguration : Prop :=
  ∀ (i : Instr) (s t : State), exec i s = .next t → (i ≠ .configure → sameConfig s t) ∧ sameHost s t

/-- R66, R273, R278: every operation that ends leaves SEQ in IDLE, no per-call state and no scratch, with exactly one
outcome reported; CLASSIFY, which writes no state, leaves them as they were. -/
def Obligations.OperationsEndAtRest : Prop :=
  ∀ (i : Instr) (s t : State), exec i s = .next t →
    (∃ r, t.result = some r) ∧
      ((∀ cmd, i ≠ .classify cmd) → atRest t) ∧ ((∃ cmd, i = .classify cmd) → t.seq = s.seq ∧ t.call = s.call)

/-- R31, R60, R64: events are only ever added, never undone, and the select line is always where the last select event
left it: nothing but `Select` writes it. -/
def Obligations.EventsGrowAndSelectFollows : Prop :=
  ∀ (i : Instr) (s t : State), exec i s = .next t →
    ∃ es, t.events = s.events ++ es ∧ t.sel = selAfter s.sel es

/-- R30, R273: in every operation but CLASSIFY the sequencer passes states strictly forward in the order of R30, starting
after IDLE and ending in DONE. -/
def Obligations.SequencerMovesForward : Prop :=
  ∀ (i : Instr) (s t : State), (∀ cmd, i ≠ .classify cmd) → exec i s = .next t →
    (t.trail.map Seq.order).Pairwise (· < ·) ∧ t.trail.getLast? = some .done ∧ Seq.idle ∉ t.trail

/-- R31: under an Option 1 configuration no host operation drives the select line. -/
def Obligations.OptionOneNeverSelects : Prop :=
  ∀ (i : Instr) (s t : State), isHostOp i = true → s.variant = .option1 → exec i s = .next t →
    t.sel = s.sel ∧ ∃ es, t.events = s.events ++ es ∧ ∀ l, Event.sel l ∉ es

/-- R26, R232: a write call samples `MaxXfer` once, and `Supports(9)` once on Option 1, `Supports(16)` once on Option 3; a
read call samples none of them. -/
def Obligations.TransportIsSampledOncePerWrite : Prop :=
  (∀ (cmd : Byte) (s t : State), s.phase = .ready → s.classify cmd = false → s.fits s.argAddr s.argLen = true →
      exec (.sendCommand cmd) s = .next t →
      t.io.maxXfer = s.io.maxXfer.skip 1 ∧
        t.io.supports9 = (if s.variant = .option1 then s.io.supports9.skip 1 else s.io.supports9) ∧
        t.io.supports16 = (if s.variant = .option3 then s.io.supports16.skip 1 else s.io.supports16)) ∧
    ∀ (cmd : Byte) (s t : State), exec (.readCommand cmd) s = .next t →
      t.io.maxXfer = s.io.maxXfer ∧ t.io.supports9 = s.io.supports9 ∧ t.io.supports16 = s.io.supports16

/-! The encoders' laws. -/

/-- R120, R122, R123: with T of at least 2, the native transfers of a byte list carry between 1 and T/2 words each and,
one after the other, exactly the words `{C, b}` of its bytes in order. -/
def Obligations.NativeTransfersCarryTheWords : Prop :=
  ∀ (c : Bool) (t : Nat) (bs : List Byte), 2 ≤ t →
    ∃ wss : List (List Word9), transfers (.n9 c) t bs = wss.map .w9 ∧
      wss.flatten = bs.map (fun b => (BitVec.ofBool c ++ b : BitVec 9)) ∧
      ∀ ws ∈ wss, 1 ≤ ws.length ∧ ws.length ≤ t / 2

/-- R180, R185: the Option 3 transfers of a byte list carry at most T bytes (T at least 1), or at most T/2 16-bit words (T
at least 2, an even number of bytes), and one after the other exactly the bytes, or the words of R56: the split does not
change what is sent. -/
def Obligations.OptionThreeTransfersCarryTheData : Prop :=
  ∀ (e : Endian) (t : Nat) (bs : List Byte),
    (1 ≤ t → ∃ bss : List (List Byte), transfers .o3x8 t bs = bss.map .w8 ∧ bss.flatten = bs ∧
        ∀ x ∈ bss, 1 ≤ x.length ∧ x.length ≤ t) ∧
      (2 ≤ t → bs.length % 2 = 0 → ∃ wss : List (List Word16), transfers (.o3x16 e) t bs = wss.map .w16 ∧
        wss.flatten = words16 e bs ∧ ∀ ws ∈ wss, 1 ≤ ws.length ∧ ws.length ≤ t / 2)

/-- R145: with T of at least 9 and rem of at least 1, the chunk is rem below 8, else a positive multiple of 8 within rem,
the most that fits `CAP = (T / 9) * 8`; and a chunk of full groups takes at most T bytes. -/
def Obligations.ChunkSizeIsWholeGroups : Prop :=
  ∀ t rem : Nat, 9 ≤ t → 1 ≤ rem →
    (rem < 8 → chunkSize t rem = rem) ∧
      (8 ≤ rem → chunkSize t rem % 8 = 0 ∧ 8 ≤ chunkSize t rem ∧ chunkSize t rem ≤ rem ∧
        chunkSize t rem ≤ t / 9 * 8 ∧ 9 * chunkSize t rem / 8 ≤ t ∧
        ∀ k, k % 8 = 0 → k ≤ rem → k ≤ t / 9 * 8 → k ≤ chunkSize t rem)

/-- R151, R152: with T of at least 9, every emulated transfer of a byte list has at most T bytes, and together they have 9
bytes for every full group and 8 more where a partial group is left; the command frame has 9. -/
def Obligations.EmulatedTransferLengths : Prop :=
  (∀ (t : Nat) (bs : List Byte), 9 ≤ t →
    (∀ x ∈ transfers .e8 t bs, x.bpw = 8 ∧ x.length ≤ t) ∧
      ((transfers .e8 t bs).map Words.length).sum = 9 * (bs.length / 8) + (if bs.length % 8 ≠ 0 then 8 else 0)) ∧
    ∀ cmd : Byte, (commandFrame cmd).length = 9

/-- R154, R153: for every byte list and every T of at least 9, the reference decoder gives back from the emulated transfers
every byte with control bit 1, in order; and from the command frame the command with control bit 0. -/
def Obligations.ReferenceDecodeRecoversStreams : Prop :=
  (∀ (t : Nat) (bs : List Byte), 9 ≤ t →
      refDecode true ((transfers .e8 t bs).map Words.bytes) = bs.map fun b => (true, b)) ∧
    ∀ cmd : Byte, refDecode false [commandFrame cmd] = [(false, cmd)]

/-- R75: read most significant bit first, a full group's frame is its eight words with control bit 1, the command frame
seven fillers and the command word, and a partial group's frame its k words, 7 − k fillers and one further bit, which is
0. -/
def Obligations.FramesAreNineBitWords : Prop :=
  (∀ g : List Byte, g.length = 8 → frameWords (pack true g) = g.map fun b => (true, b)) ∧
    (∀ cmd : Byte, frameWords (commandFrame cmd) = List.replicate 7 (false, 0) ++ [(false, cmd)]) ∧
    ∀ g : List Byte, 1 ≤ g.length → g.length ≤ 7 →
      frameWords (pack true g) = (g.map fun b => (true, b)) ++ List.replicate (7 - g.length) (false, 0) ∧
        (pack true g).length = 8 ∧ (joined (pack true g)).testBit 0 = false

/-- R188, R56, R58: on the wire, 16-bit words of a little-endian host carry each pair of source bytes with the second byte
first; those of a big-endian host carry the bytes in buffer order, as the 8-bit path does. -/
def Obligations.WideWordsOnTheWire : Prop :=
  (∀ b0 b1 : Byte, wireBits (.w16 (words16 .le [b0, b1])) = wireBits (.w8 [b1, b0])) ∧
    ∀ bs : List Byte, bs.length % 2 = 0 → wireBits (.w16 (words16 .be bs)) = wireBits (.w8 bs)

/-- R321: a data stream of n bytes takes at most ceil(n / 8) emulated transfers, ceil(n / (T/2)) native ones, ceil(n / T)
8-bit and ceil((n/2) / (T/2)) 16-bit Option 3 ones, at the T each route asks for. -/
def Obligations.TransfersAreBounded : Prop :=
  ∀ (t : Nat) (bs : List Byte) (e : Endian) (c : Bool),
    (9 ≤ t → (transfers .e8 t bs).length ≤ (bs.length + 7) / 8) ∧
      (2 ≤ t → (transfers (.n9 c) t bs).length ≤ (bs.length + (t / 2 - 1)) / (t / 2)) ∧
      (1 ≤ t → (transfers .o3x8 t bs).length ≤ (bs.length + (t - 1)) / t) ∧
      (2 ≤ t → bs.length % 2 = 0 →
        (transfers (.o3x16 e) t bs).length ≤ (bs.length / 2 + (t / 2 - 1)) / (t / 2))

/-- R33, R155: two emulated write calls of the same command and source bytes, under the same T, allocation outcome and
transfer answers, add the same events and have the same outcome, whatever else their states hold. -/
def Obligations.EmulatedSendIsDeterministic : Prop :=
  ∀ (cmd : Byte) (s1 s2 t1 t2 : State),
    (∀ s ∈ [s1, s2], s.phase = .ready ∧ s.classify cmd = false ∧ s.variant = .option1 ∧ s.supports9 = false ∧
      s.fits s.argAddr s.argLen = true) →
    s1.maxXfer = s2.maxXfer → s1.sourceBytes = s2.sourceBytes → s1.allocAnswer = s2.allocAnswer →
    s1.xferAnswer = s2.xferAnswer → exec (.sendCommand cmd) s1 = .next t1 → exec (.sendCommand cmd) s2 = .next t2 →
    t1.result = t2.result ∧ ∃ es, t1.events = s1.events ++ es ∧ t2.events = s2.events ++ es

/-- R148: the emulated encoder given a command stream of a length other than 1 ends the call `Refused(CmdLength)` in
CHECK, before any event; and no SEND_COMMAND ends so, since the dispatcher builds no such stream (R234). That the encoder
can be called directly is the model's choice (log 29). -/
def Obligations.CommandStreamLengthIsChecked : Prop :=
  (∀ (l : List Byte) (s : State), l.length ≠ 1 →
      ∃ t, execE8Stream false l s = .next t ∧ writeEnded s t [] (.refused .cmdLength) ∧ endedInCheck s t) ∧
    ∀ (cmd : Byte) (s t : State), exec (.sendCommand cmd) s = .next t → t.result ≠ some (.refused .cmdLength)

/-- R187: with n = 0 an Option 3 write is `SEL(CMD)` and one command transfer only, and SEL stays CMD. -/
def Obligations.NoParametersMeansNoDataPhase : Prop :=
  ∀ (cmd : Byte) (s : State) (raw : List Byte), s.phase = .ready → s.classify cmd = false → s.variant = .option3 →
    s.argLen = 0 → 1 ≤ s.maxXfer → s.allocAnswer = true → s.xferAnswer 0 = .ok raw →
    ∃ t, exec (.sendCommand cmd) s = .next t ∧ t.events = s.events ++ [.sel .cmd, okWrite (.w8 [cmd])] ∧
      t.sel = .cmd ∧ t.result = some (.ok none)

/-- R140, R144, R146, R149, R147, R150: the emulated encoder called directly (log 29) with a stream it can encode and T of
at least 9, its scratch allocated, does the command frame, or the data stream's transfers, up to and with the first
failing one, and its outcome is ok, or that transfer's error, or the machine stops (log 13); with T below 9 it fails with
InvalidArgument in CHECK. -/
def Obligations.DirectEncoderSendsStream : Prop :=
  ∀ (c : Bool) (l : List Byte) (s : State), (c = true ∨ l.length = 1) →
    (s.maxXfer < 9 → ∃ t, execE8Stream c l s = .next t ∧ writeEnded s t [] (.err .invalidArgument) ∧ endedInCheck s t) ∧
      (9 ≤ s.maxXfer → s.allocAnswer = true →
        let plan : List Action :=
          if c then (transfers .e8 s.maxXfer l).map .write else l.map fun b => .write (.w8 (List.replicate 8 0 ++ [b]))
        match (play s.xferAnswer 0 plan).2 with
        | .done => ∃ t, execE8Stream c l s = .next t ∧ writeEnded s t (play s.xferAnswer 0 plan).1 (.ok none)
        | .failed e => ∃ t, execE8Stream c l s = .next t ∧
            writeEnded s t (play s.xferAnswer 0 plan).1 (.err (.busError e))
        | .blocked => execE8Stream c l s = .fault .transferHang)
end

