-- ==== Sys2Proof/Laws/Memory.lean ====
section
/-! SUPPORT. Host memory: read after write, and that every memory operation keeps the canonical form and the address
range. -/

namespace Sys2Proof.Machine

@[simp] theorem Memory.read_nil (a : Nat) : Memory.read [] a = Memory.blank := rfl

theorem Memory.read_of_lt {lo : Nat} : ∀ {m : Memory} {a : Nat}, m.wfFrom lo = true → a < lo → m.read a = Memory.blank
  | [], _, _, _ => rfl
  | (x, v) :: rest, a, h, ha => by
    simp only [Memory.wfFrom, Bool.and_eq_true, decide_eq_true_eq] at h
    have hne : ¬ a = x := by omega
    simp only [Memory.read, hne, if_false]
    exact Memory.read_of_lt h.2 (by omega)

theorem Memory.wfFrom_mono {m : Memory} {lo lo' : Nat} (h : m.wfFrom lo = true) (hle : lo' ≤ lo) :
    m.wfFrom lo' = true := by
  cases m with
  | nil => rfl
  | cons c rest =>
    simp only [Memory.wfFrom, Bool.and_eq_true, decide_eq_true_eq] at h ⊢
    exact ⟨⟨by omega, h.1.2⟩, h.2⟩

theorem Memory.write_wfFrom : ∀ {m : Memory} {lo a : Nat} {b : Byte}, m.wfFrom lo = true → lo ≤ a →
    (m.write a b).wfFrom lo = true
  | [], lo, a, b, _, ha => by
    by_cases hb : b = Memory.blank <;> simp [Memory.write, Memory.wfFrom, hb, ha]
  | (x, v) :: rest, lo, a, b, h, ha => by
    have h0 := h
    simp only [Memory.wfFrom, Bool.and_eq_true, decide_eq_true_eq] at h
    obtain ⟨⟨hx, hv⟩, hr⟩ := h
    simp only [Memory.write]
    split
    · split
      · exact h0
      · simp only [Memory.wfFrom, Bool.and_eq_true, decide_eq_true_eq]
        exact ⟨⟨ha, ‹_›⟩, ⟨⟨by omega, hv⟩, hr⟩⟩
    · split
      · split
        · exact Memory.wfFrom_mono hr (by omega)
        · subst a
          simp only [Memory.wfFrom, Bool.and_eq_true, decide_eq_true_eq]
          exact ⟨⟨hx, ‹_›⟩, hr⟩
      · simp only [Memory.wfFrom, Bool.and_eq_true, decide_eq_true_eq]
        exact ⟨⟨hx, hv⟩, Memory.write_wfFrom hr (by omega)⟩

theorem Memory.read_write_from : ∀ {m : Memory} {lo : Nat} (a : Nat) (b : Byte) (x : Nat), m.wfFrom lo = true →
    (m.write a b).read x = if x = a then b else m.read x
  | [], _, a, b, x, _ => by
    by_cases hb : b = Memory.blank <;> by_cases hx : x = a <;> simp [Memory.write, Memory.read, hb, hx]
  | (y, v) :: rest, lo, a, b, x, h => by
    have h0 := h
    simp only [Memory.wfFrom, Bool.and_eq_true, decide_eq_true_eq] at h
    obtain ⟨⟨hy, hv⟩, hr⟩ := h
    simp only [Memory.write]
    split
    · rename_i hlt
      split
      · rename_i hb
        split
        · subst x
          rw [hb]
          have : ¬ a = y := by omega
          simp only [Memory.read, this, if_false]
          exact Memory.read_of_lt hr (by omega)
        · rfl
      · simp only [Memory.read]
    · split
      · rename_i heq
        subst a
        split
        · rename_i hb
          split
          · subst x
            rw [hb]
            exact Memory.read_of_lt hr (by omega)
          · simp [Memory.read, *]
        · by_cases hx : x = y <;> simp [Memory.read, hx]
      · rename_i hne
        simp only [Memory.read]
        rw [Memory.read_write_from a b x hr]
        by_cases hx : x = y
        · have : ¬ x = a := by omega
          simp [hx]; intro h; omega
        · simp [hx]

/-- Storing one byte gives it back, and leaves every other byte alone. -/
theorem Memory.read_write {m : Memory} (h : m.wf = true) (a : Nat) (b : Byte) (x : Nat) :
    (m.write a b).read x = if x = a then b else m.read x := Memory.read_write_from a b x h

/-- Storing one byte keeps the canonical form. -/
theorem Memory.write_wf {m : Memory} (h : m.wf = true) (a : Nat) (b : Byte) : (m.write a b).wf = true :=
  Memory.write_wfFrom h (Nat.zero_le _)

theorem Memory.write_inSpace {w : Nat} : ∀ {m : Memory} {a : Nat} {b : Byte}, m.inSpace w = true → a < 2 ^ w →
    (m.write a b).inSpace w = true
  | [], a, b, _, ha => by
    by_cases hb : b = Memory.blank <;> simp [Memory.write, Memory.inSpace, hb, ha]
  | (x, v) :: rest, a, b, h, ha => by
    have h0 := h
    simp only [Memory.inSpace, List.all_cons, Bool.and_eq_true, decide_eq_true_eq] at h
    simp only [Memory.write]
    split
    · split
      · exact h0
      · simp only [Memory.inSpace, List.all_cons, Bool.and_eq_true, decide_eq_true_eq]
        exact ⟨ha, h⟩
    · split
      · split
        · exact h.2
        · simp only [Memory.inSpace, List.all_cons, Bool.and_eq_true, decide_eq_true_eq]
          exact ⟨ha, h.2⟩
      · simp only [Memory.inSpace, List.all_cons, Bool.and_eq_true, decide_eq_true_eq]
        exact ⟨h.1, Memory.write_inSpace h.2 ha⟩

theorem Memory.writeBytes_wf : ∀ (l : List Byte) {m : Memory} (a : Nat), m.wf = true → (m.writeBytes a l).wf = true
  | [], _, _, h => h
  | b :: rest, _, a, h => Memory.writeBytes_wf rest (a + 1) (Memory.write_wf h a b)

theorem Memory.writeBytes_inSpace {w : Nat} : ∀ (l : List Byte) {m : Memory} (a : Nat), m.inSpace w = true →
    (l ≠ [] → a + l.length ≤ 2 ^ w) → (m.writeBytes a l).inSpace w = true
  | [], _, _, h, _ => h
  | b :: rest, _, a, h, ha => by
    have hl := ha (by simp)
    simp only [List.length_cons] at hl
    exact Memory.writeBytes_inSpace rest (a + 1) (Memory.write_inSpace h (by omega)) (fun _ => by omega)

/-- MemWrite and then MemRead of one byte: the i-th stored byte at `a + i`, every other byte as before. -/
theorem Memory.read_writeBytes : ∀ (l : List Byte) {m : Memory} (a x : Nat), m.wf = true →
    (m.writeBytes a l).read x = if a ≤ x ∧ x < a + l.length then l.getD (x - a) 0 else m.read x
  | [], m, a, x, _ => by
    have : ¬ (a ≤ x ∧ x < a) := by omega
    simp [Memory.writeBytes, this]
  | b :: rest, m, a, x, h => by
    have ih := Memory.read_writeBytes rest (a + 1) x (Memory.write_wf h a b)
    simp only [Memory.writeBytes, ih, Memory.read_write h, List.length_cons]
    by_cases h1 : x = a
    · subst h1
      have h2 : ¬ (x + 1 ≤ x ∧ x < x + 1 + rest.length) := by omega
      have h3 : x ≤ x ∧ x < x + (rest.length + 1) := by omega
      simp
    · by_cases h2 : a + 1 ≤ x ∧ x < a + 1 + rest.length
      · have h3 : a ≤ x ∧ x < a + (rest.length + 1) := by omega
        obtain ⟨k, rfl⟩ : ∃ k, x = a + 1 + k := ⟨x - (a + 1), by omega⟩
        have e1 : a + 1 + k - (a + 1) = k := by omega
        have e2 : a + 1 + k - a = k + 1 := by omega
        rw [if_pos h2, if_pos h3, e1, e2, List.getD_cons_succ]
      · have h3 : ¬ (a ≤ x ∧ x < a + (rest.length + 1)) := by omega
        rw [if_neg h2, if_neg h3, if_neg h1]

theorem hostStores_wf (w : Nat) : ∀ (l : List Host.Cell) {m : Memory}, m.wf = true → (hostStores w m l).wf = true
  | [], _, h => h
  | (a, b) :: rest, _, h => hostStores_wf w rest (Memory.write_wf h (a % 2 ^ w) b)

theorem hostStores_inSpace (w : Nat) : ∀ (l : List Host.Cell) {m : Memory}, m.inSpace w = true →
    (hostStores w m l).inSpace w = true
  | [], _, h => h
  | (a, _) :: rest, _, h =>
    hostStores_inSpace w rest (Memory.write_inSpace h (Nat.mod_lt a (Nat.two_pow_pos w)))

@[simp] theorem Memory.length_readBytes (m : Memory) (a n : Nat) : (m.readBytes a n).length = n := by
  simp [Memory.readBytes]

theorem Memory.readBytes_getD (m : Memory) (a n i : Nat) (h : i < n) : (m.readBytes a n).getD i 0 = m.read (a + i) := by
  simp [Memory.readBytes, h]

end Sys2Proof.Machine
end

