-- ==== Sys2Proof/Laws/State.lean ====
section
/-! SUPPORT. The fields of State after each named update: one lemma a field, true by rfl. No later proof unfolds a record
update. -/

namespace Sys2Proof.Machine

variable (s : State)

@[simp] theorem State.setSeq_params (q : Seq) : (s.setSeq q).params = s.params := rfl
@[simp] theorem State.setSeq_phase (q : Seq) : (s.setSeq q).phase = s.phase := rfl
@[simp] theorem State.setSeq_variant (q : Seq) : (s.setSeq q).variant = s.variant := rfl
@[simp] theorem State.setSeq_readsetValid (q : Seq) : (s.setSeq q).readsetValid = s.readsetValid := rfl
@[simp] theorem State.setSeq_readsetMap (q : Seq) : (s.setSeq q).readsetMap = s.readsetMap := rfl
@[simp] theorem State.setSeq_sel (q : Seq) : (s.setSeq q).sel = s.sel := rfl
@[simp] theorem State.setSeq_seq (q : Seq) : (s.setSeq q).seq = q := rfl
@[simp] theorem State.setSeq_trail (q : Seq) : (s.setSeq q).trail = s.trail ++ [q] := rfl
@[simp] theorem State.setSeq_call (q : Seq) : (s.setSeq q).call = s.call := rfl
@[simp] theorem State.setSeq_mem (q : Seq) : (s.setSeq q).mem = s.mem := rfl
@[simp] theorem State.setSeq_pending (q : Seq) : (s.setSeq q).pending = s.pending := rfl
@[simp] theorem State.setSeq_args (q : Seq) : (s.setSeq q).args = s.args := rfl
@[simp] theorem State.setSeq_io (q : Seq) : (s.setSeq q).io = s.io := rfl
@[simp] theorem State.setSeq_events (q : Seq) : (s.setSeq q).events = s.events := rfl
@[simp] theorem State.setSeq_result (q : Seq) : (s.setSeq q).result = s.result := rfl

@[simp] theorem State.setCall_params (c : Call) : (s.setCall c).params = s.params := rfl
@[simp] theorem State.setCall_phase (c : Call) : (s.setCall c).phase = s.phase := rfl
@[simp] theorem State.setCall_variant (c : Call) : (s.setCall c).variant = s.variant := rfl
@[simp] theorem State.setCall_readsetValid (c : Call) : (s.setCall c).readsetValid = s.readsetValid := rfl
@[simp] theorem State.setCall_readsetMap (c : Call) : (s.setCall c).readsetMap = s.readsetMap := rfl
@[simp] theorem State.setCall_sel (c : Call) : (s.setCall c).sel = s.sel := rfl
@[simp] theorem State.setCall_seq (c : Call) : (s.setCall c).seq = s.seq := rfl
@[simp] theorem State.setCall_trail (c : Call) : (s.setCall c).trail = s.trail := rfl
@[simp] theorem State.setCall_call (c : Call) : (s.setCall c).call = c := rfl
@[simp] theorem State.setCall_mem (c : Call) : (s.setCall c).mem = s.mem := rfl
@[simp] theorem State.setCall_pending (c : Call) : (s.setCall c).pending = s.pending := rfl
@[simp] theorem State.setCall_args (c : Call) : (s.setCall c).args = s.args := rfl
@[simp] theorem State.setCall_io (c : Call) : (s.setCall c).io = s.io := rfl
@[simp] theorem State.setCall_events (c : Call) : (s.setCall c).events = s.events := rfl
@[simp] theorem State.setCall_result (c : Call) : (s.setCall c).result = s.result := rfl

@[simp] theorem State.setIo_params (io : Io) : (s.setIo io).params = s.params := rfl
@[simp] theorem State.setIo_phase (io : Io) : (s.setIo io).phase = s.phase := rfl
@[simp] theorem State.setIo_variant (io : Io) : (s.setIo io).variant = s.variant := rfl
@[simp] theorem State.setIo_readsetValid (io : Io) : (s.setIo io).readsetValid = s.readsetValid := rfl
@[simp] theorem State.setIo_readsetMap (io : Io) : (s.setIo io).readsetMap = s.readsetMap := rfl
@[simp] theorem State.setIo_sel (io : Io) : (s.setIo io).sel = s.sel := rfl
@[simp] theorem State.setIo_seq (io : Io) : (s.setIo io).seq = s.seq := rfl
@[simp] theorem State.setIo_trail (io : Io) : (s.setIo io).trail = s.trail := rfl
@[simp] theorem State.setIo_call (io : Io) : (s.setIo io).call = s.call := rfl
@[simp] theorem State.setIo_mem (io : Io) : (s.setIo io).mem = s.mem := rfl
@[simp] theorem State.setIo_pending (io : Io) : (s.setIo io).pending = s.pending := rfl
@[simp] theorem State.setIo_args (io : Io) : (s.setIo io).args = s.args := rfl
@[simp] theorem State.setIo_io (io : Io) : (s.setIo io).io = io := rfl
@[simp] theorem State.setIo_events (io : Io) : (s.setIo io).events = s.events := rfl
@[simp] theorem State.setIo_result (io : Io) : (s.setIo io).result = s.result := rfl

@[simp] theorem State.setMem_params (m : Memory) : (s.setMem m).params = s.params := rfl
@[simp] theorem State.setMem_phase (m : Memory) : (s.setMem m).phase = s.phase := rfl
@[simp] theorem State.setMem_variant (m : Memory) : (s.setMem m).variant = s.variant := rfl
@[simp] theorem State.setMem_readsetValid (m : Memory) : (s.setMem m).readsetValid = s.readsetValid := rfl
@[simp] theorem State.setMem_readsetMap (m : Memory) : (s.setMem m).readsetMap = s.readsetMap := rfl
@[simp] theorem State.setMem_sel (m : Memory) : (s.setMem m).sel = s.sel := rfl
@[simp] theorem State.setMem_seq (m : Memory) : (s.setMem m).seq = s.seq := rfl
@[simp] theorem State.setMem_trail (m : Memory) : (s.setMem m).trail = s.trail := rfl
@[simp] theorem State.setMem_call (m : Memory) : (s.setMem m).call = s.call := rfl
@[simp] theorem State.setMem_mem (m : Memory) : (s.setMem m).mem = m := rfl
@[simp] theorem State.setMem_pending (m : Memory) : (s.setMem m).pending = s.pending := rfl
@[simp] theorem State.setMem_args (m : Memory) : (s.setMem m).args = s.args := rfl
@[simp] theorem State.setMem_io (m : Memory) : (s.setMem m).io = s.io := rfl
@[simp] theorem State.setMem_events (m : Memory) : (s.setMem m).events = s.events := rfl
@[simp] theorem State.setMem_result (m : Memory) : (s.setMem m).result = s.result := rfl

@[simp] theorem State.select_params (l : Level) : (s.select l).params = s.params := rfl
@[simp] theorem State.select_phase (l : Level) : (s.select l).phase = s.phase := rfl
@[simp] theorem State.select_variant (l : Level) : (s.select l).variant = s.variant := rfl
@[simp] theorem State.select_readsetValid (l : Level) : (s.select l).readsetValid = s.readsetValid := rfl
@[simp] theorem State.select_readsetMap (l : Level) : (s.select l).readsetMap = s.readsetMap := rfl
@[simp] theorem State.select_sel (l : Level) : (s.select l).sel = l := rfl
@[simp] theorem State.select_seq (l : Level) : (s.select l).seq = s.seq := rfl
@[simp] theorem State.select_trail (l : Level) : (s.select l).trail = s.trail := rfl
@[simp] theorem State.select_call (l : Level) : (s.select l).call = s.call := rfl
@[simp] theorem State.select_mem (l : Level) : (s.select l).mem = s.mem := rfl
@[simp] theorem State.select_pending (l : Level) : (s.select l).pending = s.pending := rfl
@[simp] theorem State.select_args (l : Level) : (s.select l).args = s.args := rfl
@[simp] theorem State.select_io (l : Level) : (s.select l).io = s.io := rfl
@[simp] theorem State.select_events (l : Level) : (s.select l).events = s.events ++ [.sel l] := rfl
@[simp] theorem State.select_result (l : Level) : (s.select l).result = s.result := rfl

@[simp] theorem State.enter_params (q : Seq) : (s.enter q).params = s.params := rfl
@[simp] theorem State.enter_phase (q : Seq) : (s.enter q).phase = s.phase := rfl
@[simp] theorem State.enter_variant (q : Seq) : (s.enter q).variant = s.variant := rfl
@[simp] theorem State.enter_readsetValid (q : Seq) : (s.enter q).readsetValid = s.readsetValid := rfl
@[simp] theorem State.enter_readsetMap (q : Seq) : (s.enter q).readsetMap = s.readsetMap := rfl
@[simp] theorem State.enter_sel (q : Seq) : (s.enter q).sel = s.sel := rfl
@[simp] theorem State.enter_seq (q : Seq) : (s.enter q).seq = q := rfl
@[simp] theorem State.enter_trail (q : Seq) : (s.enter q).trail = [q] := rfl
@[simp] theorem State.enter_call (q : Seq) : (s.enter q).call = Call.idle := rfl
@[simp] theorem State.enter_mem (q : Seq) : (s.enter q).mem = s.mem := rfl
@[simp] theorem State.enter_pending (q : Seq) : (s.enter q).pending = s.pending := rfl
@[simp] theorem State.enter_args (q : Seq) : (s.enter q).args = s.args := rfl
@[simp] theorem State.enter_io (q : Seq) : (s.enter q).io = s.io := rfl
@[simp] theorem State.enter_events (q : Seq) : (s.enter q).events = s.events := rfl
@[simp] theorem State.enter_result (q : Seq) : (s.enter q).result = s.result := rfl

@[simp] theorem State.finish_params (r : CallResult) : (s.finish r).params = s.params := rfl
@[simp] theorem State.finish_phase (r : CallResult) : (s.finish r).phase = s.phase := rfl
@[simp] theorem State.finish_variant (r : CallResult) : (s.finish r).variant = s.variant := rfl
@[simp] theorem State.finish_readsetValid (r : CallResult) : (s.finish r).readsetValid = s.readsetValid := rfl
@[simp] theorem State.finish_readsetMap (r : CallResult) : (s.finish r).readsetMap = s.readsetMap := rfl
@[simp] theorem State.finish_sel (r : CallResult) : (s.finish r).sel = s.sel := rfl
@[simp] theorem State.finish_seq (r : CallResult) : (s.finish r).seq = .idle := rfl
@[simp] theorem State.finish_trail (r : CallResult) : (s.finish r).trail = s.trail ++ [.done] := rfl
@[simp] theorem State.finish_call (r : CallResult) : (s.finish r).call = Call.idle := rfl
@[simp] theorem State.finish_mem (r : CallResult) : (s.finish r).mem = s.mem := rfl
@[simp] theorem State.finish_pending (r : CallResult) : (s.finish r).pending = s.pending := rfl
@[simp] theorem State.finish_args (r : CallResult) : (s.finish r).args = s.args := rfl
@[simp] theorem State.finish_io (r : CallResult) : (s.finish r).io = s.io := rfl
@[simp] theorem State.finish_events (r : CallResult) : (s.finish r).events = s.events := rfl
@[simp] theorem State.finish_result (r : CallResult) : (s.finish r).result = some r := rfl

@[simp] theorem State.havoc_params (dst n : Nat) : (s.havoc dst n).params = s.params := rfl
@[simp] theorem State.havoc_phase (dst n : Nat) : (s.havoc dst n).phase = s.phase := rfl
@[simp] theorem State.havoc_variant (dst n : Nat) : (s.havoc dst n).variant = s.variant := rfl
@[simp] theorem State.havoc_readsetValid (dst n : Nat) : (s.havoc dst n).readsetValid = s.readsetValid := rfl
@[simp] theorem State.havoc_readsetMap (dst n : Nat) : (s.havoc dst n).readsetMap = s.readsetMap := rfl
@[simp] theorem State.havoc_sel (dst n : Nat) : (s.havoc dst n).sel = s.sel := rfl
@[simp] theorem State.havoc_seq (dst n : Nat) : (s.havoc dst n).seq = s.seq := rfl
@[simp] theorem State.havoc_trail (dst n : Nat) : (s.havoc dst n).trail = s.trail := rfl
@[simp] theorem State.havoc_call (dst n : Nat) : (s.havoc dst n).call = s.call := rfl
@[simp] theorem State.havoc_pending (dst n : Nat) : (s.havoc dst n).pending = s.pending := rfl
@[simp] theorem State.havoc_args (dst n : Nat) : (s.havoc dst n).args = s.args := rfl
@[simp] theorem State.havoc_io (dst n : Nat) : (s.havoc dst n).io = { s.io with havocs := s.io.havocs + 1 } := rfl
@[simp] theorem State.havoc_events (dst n : Nat) : (s.havoc dst n).events = s.events := rfl
@[simp] theorem State.havoc_result (dst n : Nat) : (s.havoc dst n).result = s.result := rfl

@[simp] theorem State.noteXfer_params (sp : Speed) (p : Payload) (r : Reply) : (s.noteXfer sp p r).params = s.params := rfl
@[simp] theorem State.noteXfer_phase (sp : Speed) (p : Payload) (r : Reply) : (s.noteXfer sp p r).phase = s.phase := rfl
@[simp] theorem State.noteXfer_variant (sp : Speed) (p : Payload) (r : Reply) : (s.noteXfer sp p r).variant = s.variant := rfl
@[simp] theorem State.noteXfer_readsetValid (sp : Speed) (p : Payload) (r : Reply) : (s.noteXfer sp p r).readsetValid = s.readsetValid := rfl
@[simp] theorem State.noteXfer_readsetMap (sp : Speed) (p : Payload) (r : Reply) : (s.noteXfer sp p r).readsetMap = s.readsetMap := rfl
@[simp] theorem State.noteXfer_sel (sp : Speed) (p : Payload) (r : Reply) : (s.noteXfer sp p r).sel = s.sel := rfl
@[simp] theorem State.noteXfer_seq (sp : Speed) (p : Payload) (r : Reply) : (s.noteXfer sp p r).seq = s.seq := rfl
@[simp] theorem State.noteXfer_trail (sp : Speed) (p : Payload) (r : Reply) : (s.noteXfer sp p r).trail = s.trail := rfl
@[simp] theorem State.noteXfer_call (sp : Speed) (p : Payload) (r : Reply) : (s.noteXfer sp p r).call = s.call.keepReply p r := rfl
@[simp] theorem State.noteXfer_mem (sp : Speed) (p : Payload) (r : Reply) : (s.noteXfer sp p r).mem = s.mem := rfl
@[simp] theorem State.noteXfer_pending (sp : Speed) (p : Payload) (r : Reply) : (s.noteXfer sp p r).pending = s.pending := rfl
@[simp] theorem State.noteXfer_args (sp : Speed) (p : Payload) (r : Reply) : (s.noteXfer sp p r).args = s.args := rfl
@[simp] theorem State.noteXfer_io (sp : Speed) (p : Payload) (r : Reply) : (s.noteXfer sp p r).io = { s.io with xfer := s.io.xfer.tick } := rfl
@[simp] theorem State.noteXfer_events (sp : Speed) (p : Payload) (r : Reply) : (s.noteXfer sp p r).events = s.events ++ [.xfer sp p r] := rfl
@[simp] theorem State.noteXfer_result (sp : Speed) (p : Payload) (r : Reply) : (s.noteXfer sp p r).result = s.result := rfl

@[simp] theorem State.accept_params (r : Request) (rest : List Request) : (s.accept r rest).params = s.params := rfl
@[simp] theorem State.accept_phase (r : Request) (rest : List Request) : (s.accept r rest).phase = s.phase := rfl
@[simp] theorem State.accept_variant (r : Request) (rest : List Request) : (s.accept r rest).variant = s.variant := rfl
@[simp] theorem State.accept_readsetValid (r : Request) (rest : List Request) : (s.accept r rest).readsetValid = s.readsetValid := rfl
@[simp] theorem State.accept_readsetMap (r : Request) (rest : List Request) : (s.accept r rest).readsetMap = s.readsetMap := rfl
@[simp] theorem State.accept_sel (r : Request) (rest : List Request) : (s.accept r rest).sel = s.sel := rfl
@[simp] theorem State.accept_seq (r : Request) (rest : List Request) : (s.accept r rest).seq = s.seq := rfl
@[simp] theorem State.accept_trail (r : Request) (rest : List Request) : (s.accept r rest).trail = s.trail := rfl
@[simp] theorem State.accept_call (r : Request) (rest : List Request) : (s.accept r rest).call = s.call := rfl
@[simp] theorem State.accept_mem (r : Request) (rest : List Request) : (s.accept r rest).mem = hostStores s.params.addrW s.mem r.stores := rfl
@[simp] theorem State.accept_pending (r : Request) (rest : List Request) : (s.accept r rest).pending = rest := rfl
@[simp] theorem State.accept_args (r : Request) (rest : List Request) : (s.accept r rest).args = r.args := rfl
@[simp] theorem State.accept_io (r : Request) (rest : List Request) : (s.accept r rest).io = s.io := rfl
@[simp] theorem State.accept_events (r : Request) (rest : List Request) : (s.accept r rest).events = s.events := rfl
@[simp] theorem State.accept_result (r : Request) (rest : List Request) : (s.accept r rest).result = s.result := rfl

@[simp] theorem State.configureWith_params (a : Args) : (s.configureWith a).params = s.params := rfl
@[simp] theorem State.configureWith_phase (a : Args) : (s.configureWith a).phase = .ready := rfl
@[simp] theorem State.configureWith_variant (a : Args) : (s.configureWith a).variant = if a.selectPresent then .option3 else .option1 := rfl
@[simp] theorem State.configureWith_readsetValid (a : Args) : (s.configureWith a).readsetValid = a.readset.isSome := rfl
@[simp] theorem State.configureWith_readsetMap (a : Args) : (s.configureWith a).readsetMap = a.readset.getD 0 := rfl
@[simp] theorem State.configureWith_sel (a : Args) : (s.configureWith a).sel = s.sel := rfl
@[simp] theorem State.configureWith_seq (a : Args) : (s.configureWith a).seq = s.seq := rfl
@[simp] theorem State.configureWith_trail (a : Args) : (s.configureWith a).trail = s.trail := rfl
@[simp] theorem State.configureWith_call (a : Args) : (s.configureWith a).call = s.call := rfl
@[simp] theorem State.configureWith_mem (a : Args) : (s.configureWith a).mem = s.mem := rfl
@[simp] theorem State.configureWith_pending (a : Args) : (s.configureWith a).pending = s.pending := rfl
@[simp] theorem State.configureWith_args (a : Args) : (s.configureWith a).args = s.args := rfl
@[simp] theorem State.configureWith_io (a : Args) : (s.configureWith a).io = s.io := rfl
@[simp] theorem State.configureWith_events (a : Args) : (s.configureWith a).events = s.events := rfl
@[simp] theorem State.configureWith_result (a : Args) : (s.configureWith a).result = s.result := rfl

@[simp] theorem State.havoc_mem (dst n : Nat) :
    (s.havoc dst n).mem = s.mem.writeBytes dst
      ((List.range (min n (2 ^ s.params.addrW - dst))).map (Config.freeDst s.io.havocs)) := rfl

/-! The updates that are made of those. -/

@[simp] theorem State.returnOk_eq (v : Option Bool) : s.returnOk v = s.finish (.ok v) := rfl
@[simp] theorem State.raiseErr_eq (k : ErrKind) : s.raiseErr k = s.finish (.err k) := rfl
@[simp] theorem State.refuseCall_eq (r : Reason) : s.refuseCall r = s.finish (.refused r) := rfl
@[simp] theorem State.load_eq (k : Nat) (ws : Words) :
    s.load k ws = s.setCall { s.call with
      dir := .w, bpw := ws.bpw, src := 0, srcLen := k, chunk := k, rem := k, pos := 0, scratch := ws } := rfl
@[simp] theorem State.sampleE8_eq :
    s.sampleE8 = (s.setIo { s.io with maxXfer := s.io.maxXfer.tick }).setCall
      { s.call with t := s.maxXfer, route := .e8 } := rfl
@[simp] theorem State.keepRaw_eq (raw : List Byte) : s.keepRaw raw = s.setCall { s.call with raw := raw } := rfl
@[simp] theorem State.keepPm_eq (out : List Byte) :
    s.keepPm out = s.setCall { s.call with pmbuf := out.getD 0 0 } := rfl
@[simp] theorem State.storeOut_eq (dst : Nat) (out : List Byte) :
    s.storeOut dst out = s.setMem (s.mem.writeBytes dst out) := rfl
@[simp] theorem State.setCall_setCall (c d : Call) : (s.setCall c).setCall d = s.setCall d := rfl

end Sys2Proof.Machine
end

