-- ==== Sys2Proof/Laws/Ops.lean ====
section
/-! SUPPORT. What each shared operation can do, said once: answers from outside, one transfer, how flows compose, and the
stream loop. -/

namespace Sys2Proof.Machine

/-! Feeds. -/

theorem Feed.nth_tick {α : Type} (free : Nat → α) (f : Feed α) (j : Nat) :
    f.tick.nth free j = f.nth free (j + 1) := by
  simp [Feed.nth, Feed.tick, List.getD_eq_getElem?_getD, Nat.add_assoc, Nat.add_comm 1 j]

theorem Feed.nth_skip {α : Type} (free : Nat → α) (f : Feed α) (k j : Nat) :
    (f.skip k).nth free j = f.nth free (j + k) := by
  simp [Feed.nth, Feed.skip, List.getD_eq_getElem?_getD, Nat.add_comm k j, Nat.add_assoc]

@[simp] theorem Feed.skip_zero {α : Type} (f : Feed α) : f.skip 0 = f := by simp [Feed.skip]

theorem Feed.skip_tick {α : Type} (f : Feed α) (k : Nat) : f.tick.skip k = f.skip (k + 1) := by
  simp [Feed.skip, Feed.tick, Nat.add_assoc, Nat.add_comm 1 k]

theorem Feed.skip_skip {α : Type} (f : Feed α) (j k : Nat) : (f.skip j).skip k = f.skip (j + k) := by
  simp [Feed.skip, Nat.add_assoc]

@[simp] theorem State.xferAnswer_setSeq (s : State) (q : Seq) (j : Nat) :
    (s.setSeq q).xferAnswer j = s.xferAnswer j := rfl
@[simp] theorem State.xferAnswer_setCall (s : State) (c : Call) (j : Nat) :
    (s.setCall c).xferAnswer j = s.xferAnswer j := rfl
@[simp] theorem State.xferAnswer_select (s : State) (l : Level) (j : Nat) :
    (s.select l).xferAnswer j = s.xferAnswer j := rfl
@[simp] theorem State.xferAnswer_enter (s : State) (q : Seq) (j : Nat) :
    (s.enter q).xferAnswer j = s.xferAnswer j := rfl
@[simp] theorem State.xferAnswer_noteXfer (s : State) (sp : Speed) (p : Payload) (r : Reply) (j : Nat) :
    (s.noteXfer sp p r).xferAnswer j = s.xferAnswer (j + 1) := Feed.nth_tick _ _ _

/-! Flows. -/

@[simp] theorem Flow.andThen_go (s : State) (k : State → Flow) : (Flow.go s).andThen k = k s := rfl
@[simp] theorem Flow.andThen_err (e : ErrKind) (s : State) (k : State → Flow) :
    (Flow.err e s).andThen k = .err e s := rfl
@[simp] theorem Flow.andThen_refuse (r : Reason) (s : State) (k : State → Flow) :
    (Flow.refuse r s).andThen k = .refuse r s := rfl
@[simp] theorem Flow.andThen_hang (k : State → Flow) : Flow.hang.andThen k = .hang := rfl

/-- A property of every state a flow can stand in. -/
def Flow.All (P : State → Prop) : Flow → Prop
  | .go s => P s
  | .err _ s => P s
  | .refuse _ s => P s
  | .hang => True

theorem Flow.All.andThen {P Q : State → Prop} {f : Flow} {k : State → Flow} (hf : f.All P)
    (hk : ∀ s, P s → (k s).All Q) (hPQ : ∀ s, P s → Q s) : (f.andThen k).All Q := by
  cases f with
  | go s => exact hk s hf
  | err e s => exact hPQ s hf
  | refuse r s => exact hPQ s hf
  | hang => trivial

theorem Flow.All.mono {P Q : State → Prop} {f : Flow} (hf : f.All P) (hPQ : ∀ s, P s → Q s) : f.All Q := by
  cases f with
  | go s => exact hPQ s hf
  | err e s => exact hPQ s hf
  | refuse r s => exact hPQ s hf
  | hang => trivial

/-- How a call that writes no host memory ends: in a state its flow stands in, finished with an outcome; or blocked. -/
theorem Flow.close_next {f : Flow} {t : State} (h : f.close = .next t) :
    (∃ s, f = .go s ∧ t = s.finish (.ok none)) ∨ (∃ k s, f = .err k s ∧ t = s.finish (.err k)) ∨
      (∃ r s, f = .refuse r s ∧ t = s.finish (.refused r)) := by
  cases f with
  | go s => exact .inl ⟨s, rfl, by simpa [Flow.close] using h.symm⟩
  | err k s => exact .inr (.inl ⟨k, s, rfl, by simpa [Flow.close] using h.symm⟩)
  | refuse r s => exact .inr (.inr ⟨r, s, rfl, by simpa [Flow.close] using h.symm⟩)
  | hang => simp [Flow.close] at h

/-- How a read call ends. -/
theorem Flow.endRead_next {f : Flow} {dst n : Nat} {t : State} (h : f.endRead dst n = .next t) :
    (∃ s, f = .go s ∧ t = s.finish (.ok none)) ∨ (∃ k s, f = .err k s ∧ t = (s.havoc dst n).finish (.err k)) ∨
      (∃ r s, f = .refuse r s ∧ t = (s.havoc dst n).finish (.refused r)) := by
  cases f with
  | go s => exact .inl ⟨s, rfl, by simpa [Flow.endRead] using h.symm⟩
  | err k s => exact .inr (.inl ⟨k, s, rfl, by simpa [Flow.endRead] using h.symm⟩)
  | refuse r s => exact .inr (.inr ⟨r, s, rfl, by simpa [Flow.endRead] using h.symm⟩)
  | hang => simp [Flow.endRead] at h

/-! One transfer. -/

theorem State.xfer_ok {s : State} {raw : List Byte} (sp : Speed) (p : Payload) (h : s.xferAnswer 0 = .ok raw) :
    s.xfer sp p = .go (s.noteXfer sp p (.ok (received p raw s.io.xfer.count))) := by
  simp [State.xfer, h]

theorem State.xfer_err {s : State} {e : TransportError} {r : Nat} (sp : Speed) (p : Payload)
    (h : s.xferAnswer 0 = .err e r) :
    s.xfer sp p = .err (.busError e) (s.noteXfer sp p (.err e (min r p.length))) := by
  simp [State.xfer, h]

theorem State.xfer_never {s : State} (sp : Speed) (p : Payload) (h : s.xferAnswer 0 = .never) :
    s.xfer sp p = .hang := by
  simp [State.xfer, h]

/-- A property that answered transfers keep holds wherever a transfer leaves the call. -/
theorem State.xfer_all {P : State → Prop} (hx : ∀ s sp p r, P s → P (s.noteXfer sp p r)) {s : State} (hs : P s)
    (sp : Speed) (p : Payload) : (s.xfer sp p).All P := by
  cases h : s.xferAnswer 0 with
  | ok raw => rw [State.xfer_ok sp p h]; exact hx _ _ _ _ hs
  | err e r => rw [State.xfer_err sp p h]; exact hx _ _ _ _ hs
  | never => rw [State.xfer_never sp p h]; trivial

theorem State.send_all {P : State → Prop} (hx : ∀ s sp p r, P s → P (s.noteXfer sp p r))
    (hc : ∀ s c, P s → P (s.setCall c)) {s : State} (hs : P s) (sp : Speed) (k : Nat) (ws : Words) :
    (s.send sp k ws).All P :=
  (State.xfer_all hx (hc s _ hs) sp _ : ((s.load k ws).sendScratch sp).All P).andThen (fun s' h => hc s' _ h) fun _ h => h

theorem State.receive_all {P : State → Prop} (hx : ∀ s sp p r, P s → P (s.noteXfer sp p r))
    (hc : ∀ s c, P s → P (s.setCall c)) {s : State} (hs : P s) (dst n k : Nat) : (s.receive dst n k).All P :=
  State.xfer_all hx (hc s _ hs) .read _

theorem State.allocate_all {P : State → Prop} (hc : ∀ s c, P s → P (s.setCall c)) {s : State}
    (hs : P ((s.setSeq .alloc).setIo { s.io with alloc := s.io.alloc.tick })) : s.allocate.All P := by
  unfold State.allocate
  dsimp only
  split
  · exact hc _ _ hs
  · exact hs

/-- A property that answered transfers and writes of the per-call state keep holds wherever the stream loop stands. -/
theorem streamLoop_all {P : State → Prop} (hx : ∀ s sp p r, P s → P (s.noteXfer sp p r))
    (hc : ∀ s c, P s → P (s.setCall c)) (f : Framing) (st : Stream) :
    ∀ (fuel : Nat) {s : State}, P s → (streamLoop f st fuel s).All P
  | 0, _, hs => hs
  | fuel + 1, s, hs => by
    unfold streamLoop
    split
    · exact hs
    · exact (State.xfer_all hx (hc s _ hs) .default _).andThen
        (fun s' h' => streamLoop_all hx hc f st fuel (hc s' _ h')) (fun _ h => h)

theorem sendStream_all {P : State → Prop} (hx : ∀ s sp p r, P s → P (s.noteXfer sp p r))
    (hc : ∀ s c, P s → P (s.setCall c)) (f : Framing) (st : Stream) {s : State} (hs : P s) :
    (sendStream f st s).All P := streamLoop_all hx hc f st _ (hc s _ hs)

/-! Playing actions. -/

/-- Number of transfers in a list of actions. -/
def writeCount : List Action → Nat
  | [] => 0
  | .sel _ :: as => writeCount as
  | .write _ :: as => writeCount as + 1

theorem play_append (ans : Nat → XferAnswer) (bs : List Action) : ∀ (as : List Action) (j : Nat),
    play ans j (as ++ bs) =
      if (play ans j as).2 = .done then
        ((play ans j as).1 ++ (play ans (j + writeCount as) bs).1, (play ans (j + writeCount as) bs).2)
      else play ans j as
  | [], j => by simp [play, writeCount]
  | .sel l :: as, j => by
    by_cases h : (play ans j as).2 = .done <;>
      simp [play, play_append ans bs as j, writeCount, h]
  | .write ws :: as, j => by
    have hj : j + 1 + writeCount as = j + (writeCount as + 1) := by omega
    cases ha : ans j with
    | ok raw =>
      by_cases h : (play ans (j + 1) as).2 = .done <;>
        simp [play, ha, play_append ans bs as (j + 1), writeCount, h, hj]
    | err e r => simp [play, ha]
    | never => simp [play, ha]

theorem play_shift (ans : Nat → XferAnswer) (k : Nat) : ∀ (as : List Action) (j : Nat),
    play (fun i => ans (i + k)) j as = play ans (j + k) as
  | [], _ => rfl
  | .sel l :: as, j => by simp only [play, play_shift ans k as j]
  | .write ws :: as, j => by
    have : j + 1 + k = j + k + 1 := by omega
    simp only [play, play_shift ans k as (j + 1), this]

theorem play_done_count (ans : Nat → XferAnswer) : ∀ (as : List Action) (j : Nat),
    (play ans j as).2 = .done → xferCount (play ans j as).1 = writeCount as
  | [], _, _ => rfl
  | .sel l :: as, j, h => by
    simp only [play] at h ⊢
    simpa [xferCount, writeCount] using play_done_count ans as j h
  | .write ws :: as, j, h => by
    cases ha : ans j with
    | ok raw =>
      simp only [play, ha] at h ⊢
      simpa [xferCount, writeCount] using play_done_count ans as (j + 1) h
    | err e r => simp [play, ha] at h
    | never => simp [play, ha] at h

theorem xferCount_append : ∀ (as bs : List Event), xferCount (as ++ bs) = xferCount as + xferCount bs
  | [], bs => by simp [xferCount]
  | .sel _ :: as, bs => by simpa [xferCount] using xferCount_append as bs
  | .xfer _ _ _ :: as, bs => by simp [xferCount, xferCount_append as bs]; omega

theorem selAfter_append : ∀ (l : Level) (as bs : List Event), selAfter l (as ++ bs) = selAfter (selAfter l as) bs
  | _, [], _ => rfl
  | _, .sel l' :: as, bs => by simpa [selAfter] using selAfter_append l' as bs
  | l, .xfer _ _ _ :: as, bs => by simpa [selAfter] using selAfter_append l as bs

/-- All transfers complete where every answer is ok. -/
theorem play_all_ok (ans : Nat → XferAnswer) : ∀ (as : List Action) (j : Nat),
    (∀ i, i < writeCount as → ∃ raw, ans (j + i) = .ok raw) → (play ans j as).2 = .done
  | [], _, _ => rfl
  | .sel l :: as, j, h => by simpa [play] using play_all_ok ans as j (by simpa [writeCount] using h)
  | .write ws :: as, j, h => by
    obtain ⟨raw, hraw⟩ := h 0 (by simp [writeCount])
    simp only [Nat.add_zero] at hraw
    simp only [play, hraw]
    refine play_all_ok ans as (j + 1) fun i hi => ?_
    have := h (i + 1) (by simp [writeCount]; omega)
    simpa [Nat.add_assoc, Nat.add_comm 1 i] using this

/-- What the work of a call leaves alone: everything but the bus, the sequencer and the parts of the per-call state that
transfers use. -/
structure Kept (s t : State) : Prop where
  params : t.params = s.params
  phase : t.phase = s.phase
  variant : t.variant = s.variant
  readsetValid : t.readsetValid = s.readsetValid
  readsetMap : t.readsetMap = s.readsetMap
  mem : t.mem = s.mem
  pending : t.pending = s.pending
  args : t.args = s.args
  result : t.result = s.result
  route : t.call.route = s.call.route
  cap16 : t.call.cap16 = s.call.cap16
  ceiling : t.call.t = s.call.t
  swap : t.call.swap = s.call.swap

theorem Kept.refl (s : State) : Kept s s := ⟨rfl, rfl, rfl, rfl, rfl, rfl, rfl, rfl, rfl, rfl, rfl, rfl, rfl⟩

theorem Kept.trans {s t u : State} (h : Kept s t) (k : Kept t u) : Kept s u where
  params := k.params.trans h.params
  phase := k.phase.trans h.phase
  variant := k.variant.trans h.variant
  readsetValid := k.readsetValid.trans h.readsetValid
  readsetMap := k.readsetMap.trans h.readsetMap
  mem := k.mem.trans h.mem
  pending := k.pending.trans h.pending
  args := k.args.trans h.args
  result := k.result.trans h.result
  route := k.route.trans h.route
  cap16 := k.cap16.trans h.cap16
  ceiling := k.ceiling.trans h.ceiling
  swap := k.swap.trans h.swap

/-- State `t` is `s` after some events: they are recorded, the select line is as they leave it, and the answers they took
are used up. -/
structure Played (s : State) (es : List Event) (t : State) : Prop where
  kept : Kept s t
  events : t.events = s.events ++ es
  sel : t.sel = selAfter s.sel es
  io : t.io = { s.io with xfer := s.io.xfer.skip (xferCount es) }

theorem Played.refl (s : State) : Played s [] s :=
  ⟨Kept.refl s, by simp, rfl, by simp [xferCount]⟩

theorem Played.trans {s t u : State} {es fs : List Event} (h : Played s es t) (k : Played t fs u) :
    Played s (es ++ fs) u where
  kept := h.kept.trans k.kept
  events := by rw [k.events, h.events, List.append_assoc]
  sel := by rw [k.sel, h.sel, selAfter_append]
  io := by rw [k.io, h.io]; simp [Feed.skip_skip, xferCount_append]

theorem Played.xferAnswer {s t : State} {es : List Event} (h : Played s es t) (j : Nat) :
    t.xferAnswer j = s.xferAnswer (j + xferCount es) := by
  simp [State.xferAnswer, h.io, Feed.nth_skip]

/-- A flow that does, from `s`, exactly what the actions and the transport's answers give. -/
def Flow.Plays (s : State) (as : List Action) (f : Flow) : Prop :=
  match (play s.xferAnswer 0 as).2 with
  | .done => ∃ t, f = .go t ∧ Played s (play s.xferAnswer 0 as).1 t
  | .failed e => ∃ t, f = .err (.busError e) t ∧ Played s (play s.xferAnswer 0 as).1 t
  | .blocked => f = .hang

theorem Flow.Plays.nil (s : State) : Flow.Plays s [] (.go s) := ⟨s, rfl, Played.refl s⟩

/-- Work that plays `as` from `s` and then, wherever it goes on, plays `bs`, plays both. -/
theorem Flow.Plays.andThen {s : State} {as bs : List Action} {f : Flow} {k : State → Flow} (hf : f.Plays s as)
    (hk : ∀ t, Played s (play s.xferAnswer 0 as).1 t → f = .go t → (k t).Plays t bs) :
    (f.andThen k).Plays s (as ++ bs) := by
  unfold Flow.Plays at hf ⊢
  rw [play_append]
  cases he : (play s.xferAnswer 0 as).2 with
  | done =>
    simp only [he] at hf
    obtain ⟨t, rfl, ht⟩ := hf
    have hkt := hk t ht rfl
    have hans : t.xferAnswer = fun i => s.xferAnswer (i + writeCount as) := by
      funext i; rw [ht.xferAnswer, play_done_count _ _ _ he]
    unfold Flow.Plays at hkt
    rw [hans, play_shift] at hkt
    simp only [Flow.andThen_go, if_true]
    cases hb : (play s.xferAnswer (0 + writeCount as) bs).2 with
    | done =>
      simp only [hb] at hkt ⊢
      obtain ⟨u, hu, hp⟩ := hkt
      exact ⟨u, hu, ht.trans hp⟩
    | failed e =>
      simp only [hb] at hkt ⊢
      obtain ⟨u, hu, hp⟩ := hkt
      exact ⟨u, hu, ht.trans hp⟩
    | blocked =>
      simp only [hb] at hkt ⊢
      exact hkt
  | failed e =>
    simp only [he] at hf
    obtain ⟨t, rfl, ht⟩ := hf
    rw [if_neg (by simp)]
    simp only [he]
    exact ⟨t, rfl, ht⟩
  | blocked =>
    simp only [he] at hf
    subst hf
    simp [he]

/-- Starting from a state that differs in nothing the plan sees. -/
theorem Flow.Plays.of_played_nil {s s' : State} {as : List Action} {f : Flow} (h : Played s [] s')
    (hf : f.Plays s' as) : f.Plays s as := by
  have := Flow.Plays.andThen (f := .go s') (k := fun _ => f) (s := s) (as := []) (bs := as)
    ⟨s', rfl, h⟩ (fun t _ ht => by cases ht; exact hf)
  simpa using this

theorem Played.setSeq (s : State) (q : Seq) : Played s [] (s.setSeq q) :=
  ⟨⟨rfl, rfl, rfl, rfl, rfl, rfl, rfl, rfl, rfl, rfl, rfl, rfl, rfl⟩, by simp, rfl, by simp [xferCount]⟩

theorem Played.setCall (s : State) {c : Call} (hr : c.route = s.call.route) (h16 : c.cap16 = s.call.cap16)
    (ht : c.t = s.call.t) (hs : c.swap = s.call.swap) : Played s [] (s.setCall c) :=
  ⟨⟨rfl, rfl, rfl, rfl, rfl, rfl, rfl, rfl, rfl, hr, h16, ht, hs⟩, by simp, rfl, by simp [xferCount]⟩

theorem Played.select (s : State) (l : Level) : Played s [.sel l] (s.select l) :=
  ⟨⟨rfl, rfl, rfl, rfl, rfl, rfl, rfl, rfl, rfl, rfl, rfl, rfl, rfl⟩, rfl, rfl, by simp [xferCount]⟩

theorem Played.noteWrite (s : State) (sp : Speed) (ws : Words) (r : Reply) :
    Played s [.xfer sp (.write ws) r] (s.noteXfer sp (.write ws) r) := by
  refine ⟨⟨rfl, rfl, rfl, rfl, rfl, rfl, rfl, rfl, rfl, ?_, ?_, ?_, ?_⟩, rfl, rfl, ?_⟩ <;>
    simp [Call.keepReply, xferCount, Feed.skip, Feed.tick]

/-- Sending what SCRATCH holds plays one write transfer. -/
theorem State.sendScratch_plays (s : State) :
    Flow.Plays s [.write s.call.scratch] (s.sendScratch .default) := by
  unfold Flow.Plays State.sendScratch
  cases h : s.xferAnswer 0 with
  | ok raw =>
    simp only [play, h, State.xfer_ok _ _ h]
    exact ⟨_, rfl, Played.noteWrite s .default s.call.scratch _⟩
  | err e r =>
    simp only [play, h, State.xfer_err _ _ h]
    exact ⟨_, rfl, Played.noteWrite s .default s.call.scratch _⟩
  | never => simp only [play, h, State.xfer_never _ _ h]

/-- Sending words plays one write transfer of them. -/
theorem State.send_plays (s : State) (k : Nat) (ws : Words) : Flow.Plays s [.write ws] (s.send .default k ws) := by
  refine Flow.Plays.of_played_nil (s' := s.load k ws) (Played.setCall s rfl rfl rfl rfl) ?_
  exact Flow.Plays.andThen (as := [.write ws]) (bs := []) (State.sendScratch_plays (s.load k ws)) fun t _ _ =>
    Flow.Plays.of_played_nil (s' := t.advance) (Played.setCall t rfl rfl rfl rfl) (Flow.Plays.nil t.advance)

/-- A select event comes before what is played under the new level (R61). -/
theorem Flow.Plays.select {s : State} {l : Level} {as : List Action} {f : Flow} (hf : f.Plays (s.select l) as) :
    f.Plays s (.sel l :: as) := by
  have := Flow.Plays.andThen (f := .go (s.select l)) (k := fun _ => f) (s := s) (as := [.sel l]) (bs := as)
    ⟨_, rfl, Played.select s l⟩ (fun t _ ht => by cases ht; exact hf)
  simpa using this

/-! The stream loop. -/

theorem Stream.length_slice (st : Stream) (m : Memory) (pos k : Nat) : (st.slice m pos k).length = k := by
  simp [Stream.slice]

theorem Stream.take_slice (st : Stream) (m : Memory) (pos n k : Nat) (h : k ≤ n) :
    (st.slice m pos n).take k = st.slice m pos k := by
  simp [Stream.slice, ← List.map_take, List.take_range, Nat.min_eq_left h]

theorem Stream.drop_slice (st : Stream) (m : Memory) (pos n k : Nat) :
    (st.slice m pos n).drop k = st.slice m (pos + k) (n - k) := by
  apply List.ext_getElem
  · simp [Stream.slice]
  · intro i h1 h2
    simp [Stream.slice, Nat.add_assoc]

theorem transfersFuel_nil (f : Framing) (t fuel : Nat) : transfersFuel f t fuel [] = [] := by
  cases fuel <;> simp [transfersFuel]

/-- The stream loop does what the chunks of the remaining bytes and the answers give: every chunk within the remaining
bytes is one transfer, in order. -/
theorem streamLoop_plays (f : Framing) (st : Stream) : ∀ (fuel : Nat) (s : State),
    (∀ r, f.size s.call.t r ≤ r) →
    Flow.Plays s ((transfersFuel f s.call.t fuel (st.slice s.mem s.call.pos s.call.rem)).map .write)
      (streamLoop f st fuel s)
  | 0, s, _ => by simpa [transfersFuel, streamLoop] using Flow.Plays.nil s
  | fuel + 1, s, hsz => by
    unfold streamLoop
    by_cases h0 : s.call.rem = 0
    · simp only [h0, if_true]
      have : st.slice s.mem s.call.pos 0 = [] := rfl
      simpa [this, transfersFuel] using Flow.Plays.nil s
    · simp only [h0, if_false]
      have hne : (st.slice s.mem s.call.pos s.call.rem).isEmpty = false := by
        rw [List.isEmpty_eq_false_iff]
        intro h; exact h0 (by simpa [Stream.length_slice] using congrArg List.length h)
      simp only [transfersFuel, hne, Stream.length_slice, Bool.false_eq_true, if_false, List.map_cons]
      rw [Stream.take_slice _ _ _ _ _ (hsz _), Stream.drop_slice]
      have hload : Played s [] (s.loadChunk f st) := Played.setCall s rfl rfl rfl rfl
      refine Flow.Plays.of_played_nil hload ?_
      have hstep := State.sendScratch_plays (s.loadChunk f st)
      have hscr : (s.loadChunk f st).call.scratch =
          f.words (st.slice s.mem s.call.pos (f.size s.call.t s.call.rem)) := rfl
      rw [hscr] at hstep
      refine Flow.Plays.andThen (as := [_]) hstep fun t ht hgo => ?_
      have hcall : t.call = (s.loadChunk f st).call := by
        unfold State.sendScratch at hgo
        cases hx : (s.loadChunk f st).xferAnswer 0 with
        | ok raw => rw [State.xfer_ok _ _ hx] at hgo; cases hgo; rfl
        | err e r => rw [State.xfer_err _ _ hx] at hgo; cases hgo
        | never => rw [State.xfer_never _ _ hx] at hgo; cases hgo
      have hmem : t.mem = s.mem := ht.kept.mem
      have hadv : Played t [] t.advance := Played.setCall t rfl rfl rfl rfl
      refine Flow.Plays.of_played_nil hadv ?_
      have hT : t.advance.call.t = s.call.t := by simp [State.advance, hcall, State.loadChunk]
      have hpos : t.advance.call.pos = s.call.pos + f.size s.call.t s.call.rem := by
        simp [State.advance, hcall, State.loadChunk]
      have hrem : t.advance.call.rem = s.call.rem - f.size s.call.t s.call.rem := by
        simp [State.advance, hcall, State.loadChunk]
      have ih := streamLoop_plays f st fuel t.advance (by simpa [hT] using hsz)
      have hm : t.advance.mem = s.mem := hmem
      rw [hT, hpos, hrem, hm] at ih
      exact ih

theorem Framing.size_le (f : Framing) (t r : Nat) : f.size t r ≤ r := by
  cases f <;> simp only [Framing.size, chunkSize] <;> omega

/-- Sending a stream does what the chunks of its bytes and the answers give. -/
theorem sendStream_plays (f : Framing) (st : Stream) (s : State) :
    Flow.Plays s ((transfers f s.call.t (st.slice s.mem 0 st.n)).map .write) (sendStream f st s) := by
  have h := streamLoop_plays f st st.n (s.openStream st) (fun r => f.size_le _ r)
  have ho : Played s [] (s.openStream st) := Played.setCall s rfl rfl rfl rfl
  refine Flow.Plays.of_played_nil ho ?_
  simpa [transfers, Stream.length_slice, State.openStream, sendStream] using h

end Sys2Proof.Machine
end

