-- ==== Sys2Proof/Laws/Calls.lean ====
section
/-! SUPPORT. What the encoders do with a write call, route by route, as plans of transport events, and every way the
checks of a call and the read up to its decode can go. -/

namespace Sys2Proof.Machine

theorem Kept.sourceBytes {s t : State} (h : Kept s t) : t.sourceBytes = s.sourceBytes := by
  simp [State.sourceBytes, State.argAddr, State.argLen, h.params, h.mem, h.args]

theorem Kept.argLen {s t : State} (h : Kept s t) : t.argLen = s.argLen := by
  simp [State.argLen, h.params, h.args]

/-- The bytes of a call's data stream are its source bytes (R234). -/
theorem State.dataStream_slice (s : State) : s.dataStream.slice s.mem 0 s.dataStream.n = s.sourceBytes := by
  simp [State.dataStream, Stream.slice, Stream.get, State.sourceBytes, Memory.readBytes]

theorem State.sourceBytes_of_len_zero {s : State} (h : s.argLen = 0) : s.sourceBytes = [] := by
  simp [State.sourceBytes, Memory.readBytes, h]

@[simp] theorem transfers_nil (f : Framing) (t : Nat) : transfers f t [] = [] := by simp [transfers, transfersFuel]

/-- The native command stream is one transfer of one word (R121). -/
theorem transfers_native_command (t : Nat) (cmd : Byte) (h : 2 ≤ t) :
    transfers (.n9 false) t [cmd] = [.w9 [word9 false cmd]] := by
  have h1 : min (t / 2) 1 = 1 := by omega
  simp [transfers, transfersFuel, Framing.size, Framing.words, h1]

theorem n9Encode_plays (st : Stream) (s : State) :
    Flow.Plays s ((transfers (.n9 st.c) s.call.t (st.slice s.mem 0 st.n)).map .write) (n9Encode st s) :=
  sendStream_plays _ _ _

theorem e8Command_plays (cmd : Byte) (s : State) : Flow.Plays s [.write (.w8 (commandFrame cmd))] (e8Command cmd s) :=
  State.send_plays _ _ _

/-- The data phase of a native or emulated write: nothing for no parameters, else the data stream (R234). -/
theorem n9Data_plays (s : State) :
    Flow.Plays s ((transfers (.n9 true) s.call.t s.sourceBytes).map .write)
      (if s.argLen = 0 then .go s else n9Encode s.dataStream (s.setSeq .dataPhase)) := by
  split
  · rename_i h
    rw [State.sourceBytes_of_len_zero h]
    simpa using Flow.Plays.nil s
  · refine Flow.Plays.of_played_nil (Played.setSeq s .dataPhase) ?_
    have := n9Encode_plays s.dataStream (s.setSeq .dataPhase)
    have e : s.dataStream.slice (s.setSeq .dataPhase).mem 0 s.dataStream.n = s.sourceBytes := s.dataStream_slice
    rw [e] at this
    exact this

theorem e8Data_plays (s : State) :
    Flow.Plays s ((transfers .e8 s.call.t s.sourceBytes).map .write)
      (if s.argLen = 0 then .go s else e8Encode s.dataStream (s.setSeq .dataPhase)) := by
  split
  · rename_i h
    rw [State.sourceBytes_of_len_zero h]
    simpa using Flow.Plays.nil s
  · refine Flow.Plays.of_played_nil (Played.setSeq s .dataPhase) ?_
    have := sendStream_plays .e8 s.dataStream (s.setSeq .dataPhase)
    have e : s.dataStream.slice (s.setSeq .dataPhase).mem 0 s.dataStream.n = s.sourceBytes := s.dataStream_slice
    rw [e] at this
    exact this

/-- A native write plays the command word and then the data words in chunks (R120 to R123, R234). -/
theorem encodeWrite_n9_plays (cmd : Byte) (s : State) (hr : s.call.route = .n9) (ht : 2 ≤ s.call.t) :
    Flow.Plays s (.write (.w9 [word9 false cmd]) :: (transfers (.n9 true) s.call.t s.sourceBytes).map .write)
      (encodeWrite cmd s) := by
  unfold encodeWrite
  rw [hr]
  refine Flow.Plays.andThen (as := [_]) ?_ fun t h _ => ?_
  · refine Flow.Plays.of_played_nil (Played.setSeq s .cmdPhase) ?_
    have := n9Encode_plays (Stream.command cmd) (s.setSeq .cmdPhase)
    have e : (Stream.command cmd).slice (s.setSeq .cmdPhase).mem 0 (Stream.command cmd).n = [cmd] := rfl
    rw [e] at this
    have e2 : transfers (.n9 (Stream.command cmd).c) (s.setSeq .cmdPhase).call.t [cmd] = [.w9 [word9 false cmd]] :=
      transfers_native_command _ cmd ht
    rw [e2] at this
    exact this
  · have := n9Data_plays t
    rwa [h.kept.ceiling, h.kept.sourceBytes] at this

/-- An emulated write plays the command frame and then the packed data in chunks (R144, R146, R234). -/
theorem encodeWrite_e8_plays (cmd : Byte) (s : State) (hr : s.call.route = .e8) :
    Flow.Plays s (.write (.w8 (commandFrame cmd)) :: (transfers .e8 s.call.t s.sourceBytes).map .write)
      (encodeWrite cmd s) := by
  unfold encodeWrite
  rw [hr]
  refine Flow.Plays.andThen (as := [_]) ?_ fun t h _ => ?_
  · exact Flow.Plays.of_played_nil (Played.setSeq s .cmdPhase) (e8Command_plays cmd (s.setSeq .cmdPhase))
  · have := e8Data_plays t
    rwa [h.kept.ceiling, h.kept.sourceBytes] at this

/-- An Option 3 write plays the select of CMD and the command byte, and where there are parameters the select of DATA and
the data in chunks, in the framing R182 gives (R180). -/
theorem encodeWrite_o3_plays (cmd : Byte) (s : State) (hr : s.call.route = .o3) :
    Flow.Plays s
      (.sel .cmd :: .write (.w8 [cmd]) ::
        (if s.argLen = 0 then []
         else .sel .data :: (transfers (o3Framing s cmd) s.call.t s.sourceBytes).map .write))
      (encodeWrite cmd s) := by
  unfold encodeWrite
  rw [hr]
  unfold o3Write
  refine Flow.Plays.andThen (as := [.sel .cmd, .write (.w8 [cmd])])
    (bs := if s.argLen = 0 then []
      else .sel .data :: (transfers (o3Framing s cmd) s.call.t s.sourceBytes).map .write) ?_ fun t h _ => ?_
  · exact Flow.Plays.of_played_nil (Played.setSeq s .cmdPhase) (Flow.Plays.select (State.send_plays _ _ _))
  · have hf : o3Framing t cmd = o3Framing s cmd := by
      simp [o3Framing, wideData, h.kept.params, h.kept.swap, h.kept.cap16]
    rw [← h.kept.argLen, ← hf, ← h.kept.ceiling, ← h.kept.sourceBytes]
    by_cases h0 : t.argLen = 0
    · simp only [h0, if_true]
      exact Flow.Plays.nil t
    · simp only [h0, if_false]
      refine Flow.Plays.of_played_nil (Played.setSeq t .dataPhase) (Flow.Plays.select ?_)
      have := sendStream_plays (o3Framing t cmd) t.dataStream ((t.setSeq .dataPhase).select .data)
      have e : t.dataStream.slice ((t.setSeq .dataPhase).select .data).mem 0 t.dataStream.n = t.sourceBytes :=
        t.dataStream_slice
      rw [e] at this
      exact this

/-! The checks. -/

/-- Every way the checks of the emulated encoder can go (R147, R148): each leaves the state as it is. -/
theorem e8Check_cases (st : Stream) (s : State) :
    e8Check st s = .go s ∨ e8Check st s = .err .invalidArgument s ∨ e8Check st s = .refuse .cmdLength s := by
  unfold e8Check
  repeat' split
  all_goals simp

/-- The command stream of a host call has one byte, so only T is tested (R148, R234). -/
@[simp] theorem e8Check_command (cmd : Byte) (s : State) :
    e8Check (Stream.command cmd) s = if s.call.t < 9 then .err .invalidArgument s else .go s := by
  simp [e8Check, Stream.command]

/-- The bytes of a direct call's stream are the bytes given (log 29). -/
@[simp] theorem Stream.ofBytes_slice (c : Bool) (l : List Byte) (m : Memory) :
    (Stream.ofBytes c l).slice m 0 l.length = l := by
  apply List.ext_getElem
  · simp [Stream.slice]
  · intro i h1 h2
    simp [Stream.slice, Stream.ofBytes, Stream.get, h2]

/-- E8.ENC of a data stream in hand plays its emulated transfers (R146). -/
theorem e8Encode_data_plays (l : List Byte) (s : State) :
    Flow.Plays s ((transfers .e8 s.call.t l).map .write) (e8Encode (Stream.ofBytes true l) s) := by
  have h := sendStream_plays .e8 (Stream.ofBytes true l) s
  have e : (Stream.ofBytes true l).slice s.mem 0 (Stream.ofBytes true l).n = l := Stream.ofBytes_slice true l s.mem
  rwa [e] at h

/-- E8.ENC of a command stream of one byte in hand plays the command frame (R144). -/
theorem e8Encode_command_plays (b : Byte) (s : State) :
    Flow.Plays s [.write (.w8 (commandFrame b))] (e8Encode (Stream.ofBytes false [b]) s) := e8Command_plays b s

/-- Every way the size checks of a write call can go (R233): each leaves the state as it is. -/
theorem writeCheck_cases (cmd : Byte) (n : Nat) (s : State) :
    writeCheck cmd n s = .go s ∨ writeCheck cmd n s = .err .invalidArgument s ∨
      writeCheck cmd n s = .refuse .oddLength16 s := by
  unfold writeCheck
  cases s.call.route <;> simp only [e8Check_command] <;> (repeat' split) <;> simp

/-- Every way the checks of O3.READ can go (R200 to R202, R209): each leaves the state as it is. -/
theorem o3ReadCheck_cases (cmd : Byte) (n : Nat) (s : State) :
    o3ReadCheck cmd n s = .go s ∨ o3ReadCheck cmd n s = .err .unsupported s ∨
      o3ReadCheck cmd n s = .err .invalidArgument s ∨ o3ReadCheck cmd n s = .refuse .zeroRead s := by
  unfold o3ReadCheck
  repeat' split
  all_goals simp

/-- A successful allocation (R275, R276). -/
theorem State.allocate_ok {s : State} (h : s.allocAnswer = true) :
    s.allocate =
      .go { s with
        seq := .alloc, trail := s.trail ++ [.alloc], call := { s.call with allocated := true },
        io := { s.io with alloc := s.io.alloc.tick } } := by
  simp [State.allocate, h, State.setSeq, State.setIo, State.setCall]

/-- A failed allocation (R275). -/
theorem State.allocate_fail {s : State} (h : s.allocAnswer = false) :
    s.allocate =
      .err .resourceExhausted { s with
        seq := .alloc, trail := s.trail ++ [.alloc], io := { s.io with alloc := s.io.alloc.tick } } := by
  simp [State.allocate, h, State.setSeq, State.setIo]

/-- What a write call samples on Option 1 (R232). -/
theorem State.sample_option1 {s : State} (h : s.variant = .option1) :
    s.sample =
      { s with
        call := { s.call with
          cap9 := s.supports9, t := s.maxXfer, route := if s.supports9 then .n9 else .e8 }
        io := { s.io with supports9 := s.io.supports9.tick, maxXfer := s.io.maxXfer.tick } } := by
  simp [State.sample, h, routeOf, State.setCall, State.setIo]

/-- What a write call samples on Option 3 (R232). -/
theorem State.sample_option3 {s : State} (h : s.variant = .option3) :
    s.sample =
      { s with
        call := { s.call with
          cap16 := s.supports16, t := s.maxXfer, route := .o3
          swap := swapOf s.params.hostEndian s.supports16 }
        io := { s.io with supports16 := s.io.supports16.tick, maxXfer := s.io.maxXfer.tick } } := by
  simp [State.sample, h, routeOf, State.setCall, State.setIo]

/-- The data phase is 16 bits wide exactly for the memory-write command on a transport that can do 16-bit words: SWAP is
then 0 whatever the platform's byte order (R27, R182). -/
theorem wideData_sampled (p : Params) (c : Call) (cmd : Byte) (hs : c.swap = swapOf p.hostEndian c.cap16) :
    wideData p c cmd = true ↔ cmd = p.memWriteCmd ∧ c.cap16 = true := by
  cases h16 : c.cap16 <;> simp [wideData, swapOf, hs, h16]

/-- A property that answered transfers, writes of the per-call state, selects and SEQ keep holds wherever the encoders
leave a write. -/
theorem encodeWrite_all {P : State → Prop} (hx : ∀ s sp p r, P s → P (s.noteXfer sp p r))
    (hc : ∀ s c, P s → P (s.setCall c)) (hq : ∀ s q, P s → P (s.setSeq q)) (hl : ∀ s l, P s → P (s.select l))
    (cmd : Byte) {s : State} (hs : P s) : (encodeWrite cmd s).All P := by
  unfold encodeWrite
  split
  · refine (sendStream_all hx hc _ _ (hq s _ hs)).andThen (fun s1 h1 => ?_) fun _ h => h
    split
    · exact h1
    · exact sendStream_all hx hc _ _ (hq s1 _ h1)
  · refine (State.send_all hx hc (hq s .cmdPhase hs) .default _ _ : (e8Encode (Stream.command cmd) _).All P).andThen
      (fun s1 h1 => ?_) fun _ h => h
    split
    · exact h1
    · exact sendStream_all hx hc _ _ (hq s1 _ h1)
  · unfold o3Write
    refine (State.send_all hx hc (hl _ .cmd (hq s .cmdPhase hs)) .default _ _ :
      (o3Command .default cmd _).All P).andThen (fun s1 h1 => ?_) fun _ h => h
    split
    · exact h1
    · exact sendStream_all hx hc _ _ (hl _ _ (hq s1 _ h1))

/-- The same for a read up to its decode. -/
theorem o3ReadRaw_all {P : State → Prop} (hx : ∀ s sp p r, P s → P (s.noteXfer sp p r))
    (hc : ∀ s c, P s → P (s.setCall c)) (hq : ∀ s q, P s → P (s.setSeq q)) (hl : ∀ s l, P s → P (s.select l))
    (ha : ∀ s io, P s → P (s.setIo io)) (cmd : Byte) (dst n : Nat) {s : State} (hs : P s) :
    (o3ReadRaw cmd dst n s).All P := by
  unfold o3ReadRaw
  refine Flow.All.andThen (P := P) (Q := P) ?_ (fun s1 h1 => ?_) fun _ h => h
  · rcases o3ReadCheck_cases cmd n s with h | h | h | h <;> rw [h] <;> exact hs
  · refine (State.allocate_all hc (ha _ _ (hq s1 _ h1))).andThen (fun s2 h2 => ?_) fun _ h => h
    refine (State.send_all hx hc (hl _ .cmd (hq s2 .cmdPhase h2)) .read _ _ :
      (o3Command .read cmd _).All P).andThen (fun s3 h3 => ?_) fun _ h => h
    refine (State.receive_all hx hc (hq s3 _ h3) _ _ _).andThen (fun s4 h4 => ?_) fun _ h => h
    exact hq s4 _ h4

/-- The same for READ_COMMAND's flow, and for IS_DISPLAY_ON's. -/
theorem readFlow_all {P : State → Prop} (hx : ∀ s sp p r, P s → P (s.noteXfer sp p r))
    (hc : ∀ s c, P s → P (s.setCall c)) (hq : ∀ s q, P s → P (s.setSeq q)) (hl : ∀ s l, P s → P (s.select l))
    (ha : ∀ s io, P s → P (s.setIo io)) (cmd : Byte) (dst n : Nat) (b : Bool) {s : State} (hs : P s) :
    (readFlow cmd dst n b s).All P := by
  unfold readFlow
  repeat' split
  all_goals first
    | exact hs
    | exact o3ReadRaw_all hx hc hq hl ha cmd dst n hs

/-- The same for the write path. -/
theorem writeCall_all {P : State → Prop} (hx : ∀ s sp p r, P s → P (s.noteXfer sp p r))
    (hc : ∀ s c, P s → P (s.setCall c)) (hq : ∀ s q, P s → P (s.setSeq q)) (hl : ∀ s l, P s → P (s.select l))
    (ha : ∀ s io, P s → P (s.setIo io)) (cmd : Byte) {s : State} (hs : P s) : (writeCall cmd s).All P := by
  unfold writeCall
  split
  · have hsm : P s.sample := by
      unfold State.sample
      split
      · exact hc _ _ (ha _ _ hs)
      · exact hc _ _ (ha _ _ hs)
    refine Flow.All.andThen (P := P) (Q := P) ?_ (fun s1 h1 => ?_) fun _ h => h
    · rcases writeCheck_cases cmd s.argLen s.sample with h | h | h <;> rw [h] <;> exact hsm
    · exact (State.allocate_all hc (ha _ _ (hq s1 _ h1))).andThen
        (fun s2 h2 => encodeWrite_all hx hc hq hl cmd h2) fun _ h => h
  · exact hs

end Sys2Proof.Machine
end

