-- ==== Sys2Proof/Laws/Encoding.lean ====
section
/-! SUPPORT. What the fields of an encoding are: slices of appended values, the bytes of a value put together again, and
the word slots of the emulated frames. -/

namespace Sys2Proof

/-- Two neighbouring slices of a value are one slice. -/
theorem extractLsb'_append_extractLsb' {w : Nat} (v : BitVec w) (s n m k : Nat) (h : k = s + m) :
    v.extractLsb' k n ++ v.extractLsb' s m = v.extractLsb' s (n + m) := by
  subst h
  apply BitVec.eq_of_getLsbD_eq
  intro i hi
  simp only [BitVec.getLsbD_append, BitVec.getLsbD_extractLsb', hi, decide_true, Bool.true_and]
  split
  · simp_all
  · rename_i h
    simp only [show i - m < n by omega, decide_true, Bool.true_and]
    congr 1
    omega

/-- The whole slice of a value is the value. -/
theorem extractLsb'_whole {w : Nat} (v : BitVec w) : v.extractLsb' 0 w = v := by
  apply BitVec.eq_of_getLsbD_eq
  intro i hi
  simp [hi]

/-- A slice of the upper part of an append. -/
theorem extractLsb'_append_high {n m : Nat} (x : BitVec n) (y : BitVec m) (s k : Nat) (h : m ≤ s) :
    (x ++ y).extractLsb' s k = x.extractLsb' (s - m) k := by
  apply BitVec.eq_of_getLsbD_eq
  intro i hi
  simp only [BitVec.getLsbD_extractLsb', hi, decide_true, Bool.true_and, BitVec.getLsbD_append]
  rw [if_neg (by omega)]
  congr 1
  omega

/-- A slice of the lower part of an append. -/
theorem extractLsb'_append_low {n m : Nat} (x : BitVec n) (y : BitVec m) (s k : Nat) (h : s + k ≤ m) :
    (x ++ y).extractLsb' s k = y.extractLsb' s k := by
  apply BitVec.eq_of_getLsbD_eq
  intro i hi
  simp only [BitVec.getLsbD_extractLsb', hi, decide_true, Bool.true_and, BitVec.getLsbD_append]
  rw [if_pos (by omega)]

/-- A bit of the upper part of an append. -/
theorem getLsbD_append_high {n m : Nat} (x : BitVec n) (y : BitVec m) (i : Nat) (h : m ≤ i) :
    (x ++ y).getLsbD i = x.getLsbD (i - m) := by
  rw [BitVec.getLsbD_append, if_neg (by omega)]

/-- A bit of the lower part of an append. -/
theorem getLsbD_append_low {n m : Nat} (x : BitVec n) (y : BitVec m) (i : Nat) (h : i < m) :
    (x ++ y).getLsbD i = y.getLsbD i := by
  rw [BitVec.getLsbD_append, if_pos h]

/-! Bytes of a value, and the value of its bytes. -/

theorem bytesOf_one (v : Byte) : bytesOf 1 v = [v] := by
  show [v.extractLsb' 0 8] = [v]
  rw [extractLsb'_whole]

theorem bytesOf_two {w : Nat} (v : BitVec w) : bytesOf 2 v = [v.extractLsb' 8 8, v.extractLsb' 0 8] := rfl

theorem bytesOf_four {w : Nat} (v : BitVec w) :
    bytesOf 4 v = [v.extractLsb' 24 8, v.extractLsb' 16 8, v.extractLsb' 8 8, v.extractLsb' 0 8] := rfl

theorem bytesOf_five {w : Nat} (v : BitVec w) :
    bytesOf 5 v =
      [v.extractLsb' 32 8, v.extractLsb' 24 8, v.extractLsb' 16 8, v.extractLsb' 8 8, v.extractLsb' 0 8] := rfl

theorem bytesOf_eight {w : Nat} (v : BitVec w) :
    bytesOf 8 v =
      [v.extractLsb' 56 8, v.extractLsb' 48 8, v.extractLsb' 40 8, v.extractLsb' 32 8, v.extractLsb' 24 8,
        v.extractLsb' 16 8, v.extractLsb' 8 8, v.extractLsb' 0 8] := rfl

theorem bytesOf_nine {w : Nat} (v : BitVec w) :
    bytesOf 9 v =
      [v.extractLsb' 64 8, v.extractLsb' 56 8, v.extractLsb' 48 8, v.extractLsb' 40 8, v.extractLsb' 32 8,
        v.extractLsb' 24 8, v.extractLsb' 16 8, v.extractLsb' 8 8, v.extractLsb' 0 8] := rfl

theorem join_two (v : BitVec 16) : v.extractLsb' 8 8 ++ v.extractLsb' 0 8 = v := by
  rw [extractLsb'_append_extractLsb' v 0 8 8 8 rfl]
  exact extractLsb'_whole v

theorem join_four (v : BitVec 32) :
    v.extractLsb' 24 8 ++ v.extractLsb' 16 8 ++ v.extractLsb' 8 8 ++ v.extractLsb' 0 8 = v := by
  rw [extractLsb'_append_extractLsb' v 16 8 8 24 rfl, extractLsb'_append_extractLsb' v 8 16 8 16 rfl,
    extractLsb'_append_extractLsb' v 0 24 8 8 rfl]
  exact extractLsb'_whole v

theorem join_five (v : BitVec 40) :
    v.extractLsb' 32 8 ++ v.extractLsb' 24 8 ++ v.extractLsb' 16 8 ++ v.extractLsb' 8 8 ++ v.extractLsb' 0 8 = v := by
  rw [extractLsb'_append_extractLsb' v 24 8 8 32 rfl, extractLsb'_append_extractLsb' v 16 16 8 24 rfl,
    extractLsb'_append_extractLsb' v 8 24 8 16 rfl, extractLsb'_append_extractLsb' v 0 32 8 8 rfl]
  exact extractLsb'_whole v

theorem join_eight (v : Acc) :
    v.extractLsb' 56 8 ++ v.extractLsb' 48 8 ++ v.extractLsb' 40 8 ++ v.extractLsb' 32 8 ++ v.extractLsb' 24 8 ++
      v.extractLsb' 16 8 ++ v.extractLsb' 8 8 ++ v.extractLsb' 0 8 = v := by
  rw [extractLsb'_append_extractLsb' v 48 8 8 56 rfl, extractLsb'_append_extractLsb' v 40 16 8 48 rfl,
    extractLsb'_append_extractLsb' v 32 24 8 40 rfl, extractLsb'_append_extractLsb' v 24 32 8 32 rfl,
    extractLsb'_append_extractLsb' v 16 40 8 24 rfl, extractLsb'_append_extractLsb' v 8 48 8 16 rfl,
    extractLsb'_append_extractLsb' v 0 56 8 8 rfl]
  exact extractLsb'_whole v

theorem join_nine (v : Frame) :
    v.extractLsb' 64 8 ++ v.extractLsb' 56 8 ++ v.extractLsb' 48 8 ++ v.extractLsb' 40 8 ++ v.extractLsb' 32 8 ++
      v.extractLsb' 24 8 ++ v.extractLsb' 16 8 ++ v.extractLsb' 8 8 ++ v.extractLsb' 0 8 = v := by
  rw [extractLsb'_append_extractLsb' v 56 8 8 64 rfl, extractLsb'_append_extractLsb' v 48 16 8 56 rfl,
    extractLsb'_append_extractLsb' v 40 24 8 48 rfl, extractLsb'_append_extractLsb' v 32 32 8 40 rfl,
    extractLsb'_append_extractLsb' v 24 40 8 32 rfl, extractLsb'_append_extractLsb' v 16 48 8 24 rfl,
    extractLsb'_append_extractLsb' v 8 56 8 16 rfl, extractLsb'_append_extractLsb' v 0 64 8 8 rfl]
  exact extractLsb'_whole v

/-- The byte of a data word slot. -/
theorem slot_byte (b : Byte) : (slot b).extractLsb' 0 8 = b := by
  unfold slot
  rw [extractLsb'_append_low _ _ _ _ (by decide)]
  exact extractLsb'_whole b

/-- The control bit of a data word slot. -/
theorem slot_ctl (b : Byte) : (slot b).getLsbD 8 = true := by
  unfold slot
  rw [getLsbD_append_high _ _ _ (by decide)]
  rfl

/-- A word slot whose control bit is 1 is a data word slot of its byte. -/
theorem slot_of_ctl {w : Nat} (v : BitVec w) (s k : Nat) (hk : k = s + 8) (h : v.getLsbD k = true) :
    slot (v.extractLsb' s 8) = v.extractLsb' s 9 := by
  subst hk
  have h1 : (1#1 : BitVec 1) = v.extractLsb' (s + 8) 1 := by
    apply BitVec.eq_of_getLsbD_eq
    intro i hi
    obtain rfl : i = 0 := by omega
    simp [h]
  unfold slot
  rw [h1]
  exact extractLsb'_append_extractLsb' v s 1 8 (s + 8) rfl

/-- What a shift to the left pushes out leaves only zeros behind exactly when the bits below it were zeros. -/
theorem low_zero_of_shiftLeft {w : Nat} (v : BitVec w) (n m : Nat) (hm : n + m = w) (h : v <<< n = 0) :
    v.extractLsb' 0 m = 0#m := by
  apply BitVec.eq_of_getLsbD_eq
  intro i hi
  have := congrArg (fun x : BitVec w => x.getLsbD (n + i)) h
  simp only [BitVec.getLsbD_shiftLeft, BitVec.ofNat_eq_ofNat, BitVec.getLsbD_zero] at this
  simp only [BitVec.getLsbD_extractLsb', hi, decide_true, Bool.true_and, BitVec.getLsbD_zero, Nat.zero_add]
  simpa [show n + i < w by omega] using this

end Sys2Proof
end

