-- ==== Sys2Proof/Laws/PerInstr.lean ====
section
/-! SUPPORT. Statements made once per instruction: how many bytes its encoding has. -/

namespace Sys2Proof.Laws.EncodedLength

open Sys2Proof

/-- Bytes of a row: its bits in opcode_table.json, in whole bytes (a selector, a 9-bit and a 16-bit word take two). -/
def rowBytes : Instr → Nat
  | .configure => 2
  | .sendCommand _ => 2
  | .readCommand _ => 2
  | .isDisplayOn => 2
  | .reservedOp _ _ => 2
  | .classify _ => 1
  | .n9Cmd _ => 2
  | .n9Data _ => 2
  | .e8Cmd _ => 9
  | .e8Full _ _ _ _ _ _ _ _ => 9
  | .e8Part1 _ => 8
  | .e8Part2 _ _ => 8
  | .e8Part3 _ _ _ => 8
  | .e8Part4 _ _ _ _ => 8
  | .e8Part5 _ _ _ _ _ => 8
  | .e8Part6 _ _ _ _ _ _ => 8
  | .e8Part7 _ _ _ _ _ _ _ => 8
  | .o3Cmd _ => 1
  | .o3Data8 _ => 1
  | .o3Data16 _ => 2
  | .o3Rd8 _ => 1
  | .o3Rddc3 _ _ _ _ _ => 4
  | .o3Rddc4 _ _ _ _ _ _ => 5

/-- The encoding of a row's instruction has the row's bytes. -/
def Statement (i : Instr) : Prop := (encode i).length = rowBytes i

theorem configure : Statement .configure := rfl
theorem sendCommand (cmd : Byte) : Statement (.sendCommand cmd) := rfl
theorem readCommand (cmd : Byte) : Statement (.readCommand cmd) := rfl
theorem isDisplayOn : Statement .isDisplayOn := rfl
theorem reservedOp (op : BitVec 3) (c : Byte) : Statement (.reservedOp op c) := rfl
theorem classify (cmd : Byte) : Statement (.classify cmd) := rfl
theorem n9Cmd (c : Byte) : Statement (.n9Cmd c) := rfl
theorem n9Data (d : Byte) : Statement (.n9Data d) := rfl
theorem e8Cmd (c : Byte) : Statement (.e8Cmd c) := rfl
theorem e8Full (b0 b1 b2 b3 b4 b5 b6 b7 : Byte) : Statement (.e8Full b0 b1 b2 b3 b4 b5 b6 b7) := rfl
theorem e8Part1 (b0 : Byte) : Statement (.e8Part1 b0) := rfl
theorem e8Part2 (b0 b1 : Byte) : Statement (.e8Part2 b0 b1) := rfl
theorem e8Part3 (b0 b1 b2 : Byte) : Statement (.e8Part3 b0 b1 b2) := rfl
theorem e8Part4 (b0 b1 b2 b3 : Byte) : Statement (.e8Part4 b0 b1 b2 b3) := rfl
theorem e8Part5 (b0 b1 b2 b3 b4 : Byte) : Statement (.e8Part5 b0 b1 b2 b3 b4) := rfl
theorem e8Part6 (b0 b1 b2 b3 b4 b5 : Byte) : Statement (.e8Part6 b0 b1 b2 b3 b4 b5) := rfl
theorem e8Part7 (b0 b1 b2 b3 b4 b5 b6 : Byte) : Statement (.e8Part7 b0 b1 b2 b3 b4 b5 b6) := rfl
theorem o3Cmd (c : Byte) : Statement (.o3Cmd c) := rfl
theorem o3Data8 (d : Byte) : Statement (.o3Data8 d) := rfl
theorem o3Data16 (d : Word16) : Statement (.o3Data16 d) := rfl
theorem o3Rd8 (r : Byte) : Statement (.o3Rd8 r) := rfl
theorem o3Rddc3 (x : BitVec 1) (a b c : Byte) (y : BitVec 7) : Statement (.o3Rddc3 x a b c y) := rfl
theorem o3Rddc4 (x : BitVec 1) (a b c d : Byte) (y : BitVec 7) : Statement (.o3Rddc4 x a b c d y) := rfl

end Sys2Proof.Laws.EncodedLength
end

