-- ==== Sys2Proof/Tests/Slice0.lean ====
section
/-! SUPPORT. Tests: the well-formedness check, one written-out encoding for every row, single steps with results from
95_test_vectors.md, and for every statement with hypotheses a state that meets them all. -/

namespace Sys2Proof.Tests

open Sys2Proof Sys2Proof.Machine

/-! Small states. -/

/-- The parameter values 95_test_vectors.md uses. -/
def params : Params where
  readCeilHz := 2000000
  busMaxHz := 10000000
  dcCmds := { first := 0x04, second := 0x09 }
  memWriteCmd := 0x2C
  powerModeCmd := 0x0A
  pmMask := 0x7E
  pmExpect := 0x1C
  hostEndian := .le
  readsetSentinel := 0x00
  addrW := 32
  lenW := 32

/-- The transport's answers: capability for 9 and 16 bits, ceiling T, allocation, transfers. -/
def answers (wide : Bool) (t : Nat) (alloc : Bool) (xs : List XferAnswer) : Io :=
  ⟨⟨[wide], 0⟩, ⟨[wide], 0⟩, ⟨[t], 0⟩, ⟨[alloc], 0⟩, ⟨xs, 0⟩, 0⟩

/-- A new instance with these parameters, and operands `addr` and `len`. -/
def fresh (addr len : Nat) (io : Io) : State :=
  { State.reset with params := params, args := ⟨false, none, addr, len⟩, io := io }

/-- A new instance about to be configured on Option 1 with a read set. -/
def withSet (l : List Byte) : State :=
  { fresh 0 0 (answers true 64 true []) with args := ⟨false, some (setOf l), 0, 0⟩ }

/-- A configured block. -/
def ready (v : Variant) (cmds : List Byte) (addr len : Nat) (io : Io) : State :=
  { fresh addr len io with
    phase := .ready, variant := v, readsetValid := !cmds.isEmpty, readsetMap := setOf cmds }

/-- Bytes in host memory. -/
def holding (a : Nat) (l : List Byte) (s : State) : State := { s with mem := Memory.writeBytes [] a l }

/-- A request of the host on the queue. -/
def asking (bytes : List Byte) (s : State) : State := { s with pending := [s.requestOf .hostSel bytes] }

/-- A stream for the emulated encoder on the queue. -/
def encoding (c : Bool) (l : List Byte) (s : State) : State := { s with pending := [s.requestOf (.e8Stream c) l] }

/-- Outcome and events of a call. -/
def seen : Host.Outcome State Fault Refusal → Option (Option CallResult × List Event)
  | .next t => some (t.result, t.events)
  | _ => none

/-- What CONFIGURE writes, and its events. -/
def configured : Host.Outcome State Fault Refusal → Option (Phase × Variant × Bool × ByteSet × List Event)
  | .next t => some (t.phase, t.variant, t.readsetValid, t.readsetMap, t.events)
  | _ => none

/-- The bytes at an address after a call. -/
def bytesAt (a n : Nat) : Host.Outcome State Fault Refusal → Option (List Byte)
  | .next t => some (t.mem.readBytes a n)
  | _ => none

def ok : XferAnswer := .ok []

def fail (k : Nat) : XferAnswer := .err (.ofIndex k) 0

def w9 (ws : List Word9) : Event := .xfer .default (.write (.w9 ws)) (.ok [])

def w8 (ws : List Byte) : Event := .xfer .default (.write (.w8 ws)) (.ok [])

def w16 (ws : List Word16) : Event := .xfer .default (.write (.w16 ws)) (.ok [])

/-- The read commands of section 2.6 of 95_test_vectors.md. -/
def cmds : List Byte := [0x04, 0x09, 0x0A, 0xDA]

/-! WellFormed: the one check refuses a reserved selector whose top bit is 0 (R84). -/

theorem test_wellFormed_refuses_low_reserved : (Instr.reservedOp 3#3 0).wellFormed = false := by decide

theorem test_wellFormed_admits_reserved : (Instr.reservedOp 4#3 0).wellFormed = true := by decide

/-! Decoding: words written out from 30_encoding.md, and where there is one from a vector of 95_test_vectors.md. -/

theorem test_decode_configure : decode .hostSel [0b00000000, 0b00000000] = .ok .configure := by decide +kernel
theorem test_decode_sendCommand : decode .hostSel [0b00000001, 0b00101010] = .ok (.sendCommand 0x2A) := by decide +kernel
theorem test_decode_readCommand : decode .hostSel [0b00000010, 0b00001010] = .ok (.readCommand 0x0A) := by decide +kernel
theorem test_decode_isDisplayOn : decode .hostSel [0b00000011, 0b00000000] = .ok .isDisplayOn := by decide +kernel
theorem test_decode_reservedOp : decode .hostSel [0b00000101, 0b00000000] = .ok (.reservedOp 5#3 0) := by decide +kernel
theorem test_decode_classify : decode .cmd8 [0b00001010] = .ok (.classify 0x0A) := by decide +kernel
theorem test_decode_n9Cmd : decode .w9 [0b00000000, 0b00101010] = .ok (.n9Cmd 0x2A) := by decide +kernel
theorem test_decode_n9Data : decode .w9 [0b00000001, 0b01011010] = .ok (.n9Data 0x5A) := by decide +kernel
theorem test_decode_e8Cmd : decode .e8 [0, 0, 0, 0, 0, 0, 0, 0, 0x2C] = .ok (.e8Cmd 0x2C) := by decide +kernel
theorem test_decode_e8Full :
    decode .e8 [0x80, 0xC0, 0xA0, 0x70, 0x48, 0x2C, 0x1A, 0x0F, 0x08] = .ok (.e8Full 1 2 3 4 5 6 7 8) := by
  decide +kernel
theorem test_decode_e8Part1 : decode .e8 [0xD5, 0, 0, 0, 0, 0, 0, 0] = .ok (.e8Part1 0xAA) := by decide +kernel
theorem test_decode_e8Part2 : decode .e8 [0x89, 0x4D, 0, 0, 0, 0, 0, 0] = .ok (.e8Part2 0x12 0x34) := by decide +kernel
theorem test_decode_e8Part3 :
    decode .e8 [0xAD, 0x69, 0x67, 0x80, 0, 0, 0, 0] = .ok (.e8Part3 0x5A 0xA5 0x3C) := by decide +kernel
theorem test_decode_e8Part4 :
    decode .e8 [0x80, 0x40, 0x20, 0x1E, 0xF0, 0, 0, 0] = .ok (.e8Part4 0 0 0 0xEF) := by decide +kernel
/-- The bits `1 00000001` five times, then zeros (R74). -/
theorem test_decode_e8Part5 :
    decode .e8 [0x80, 0xC0, 0x60, 0x30, 0x18, 0x08, 0, 0] = .ok (.e8Part5 1 1 1 1 1) := by decide +kernel
/-- The bits `1 00000001` six times, then zeros. -/
theorem test_decode_e8Part6 :
    decode .e8 [0x80, 0xC0, 0x60, 0x30, 0x18, 0x0C, 0x04, 0] = .ok (.e8Part6 1 1 1 1 1 1) := by decide +kernel
theorem test_decode_e8Part7 :
    decode .e8 [0xEF, 0x6B, 0x77, 0xDE, 0xF8, 0x0C, 0x0A, 0x06] =
      .ok (.e8Part7 0xDE 0xAD 0xBE 0xEF 1 2 3) := by decide +kernel
theorem test_decode_o3Cmd : decode (.o3b .cmd) [0b00101100] = .ok (.o3Cmd 0x2C) := by decide +kernel
theorem test_decode_o3Data8 : decode (.o3b .data) [0b00011111] = .ok (.o3Data8 0x1F) := by decide +kernel
theorem test_decode_o3Data16 : decode .o3w [0b11111000, 0b00011111] = .ok (.o3Data16 0xF81F) := by decide +kernel
theorem test_decode_o3Rd8 : decode .rd [0b10011100] = .ok (.o3Rd8 0x9C) := by decide +kernel
/-- VR2's raw bytes: `0 00100100 01101000 10101101 0000000`. -/
theorem test_decode_o3Rddc3 :
    decode .rddc [0x12, 0x34, 0x56, 0x80] = .ok (.o3Rddc3 0 0x24 0x68 0xAD 0) := by decide +kernel
/-- VR3's raw bytes. -/
theorem test_decode_o3Rddc4 :
    decode .rddc [0x00, 0xC3, 0x5A, 0x0F, 0xF0] = .ok (.o3Rddc4 0 0x01 0x86 0xB4 0x1F 0x70) := by decide +kernel

/-- Words that are in no row are refused by name. -/
theorem test_decode_refuses :
    decode .hostSel [0b00000000, 0b00000001] = .error .noSelector ∧
      decode .hostSel [0b00001000, 0b00000000] = .error .containerBits ∧
      decode .e8 [0, 0, 0, 0, 0, 0, 0, 0] = .error .noDataWord ∧
      decode .e8 [0x80, 0, 0, 0, 0, 0, 0, 1] = .error .fillerBits ∧
      decode .e8 [0, 0, 0, 0, 0, 0, 0, 1, 0x2C] = .error .mixedFrame ∧
      decode .w9 [0b00000001] = .error .wrongLength := by decide +kernel

/-- The table's numbering: a host selector, a frame, and RDDC-3 by their values. -/
theorem test_tableWord :
    decodeTableWord 16 0x12A = some (.sendCommand 0x2A) ∧
      decodeTableWord 72 0x80402010080402_0100 = some (.e8Full 0 0 0 0 0 0 0 0) ∧
      decodeTableWord 32 0x12345680 = some (.o3Rddc3 0 0x24 0x68 0xAD 0) := by decide +kernel

/-! Single calls, with the results of 95_test_vectors.md. -/

/-- VH5. -/
theorem test_configure :
    configured (exec .configure (withSet [0x04, 0x09, 0x0A])) =
      some (.ready, .option1, true, setOf [0x04, 0x09, 0x0A], []) := by decide +kernel

/-- VH4 and VC7: 256 members, and the sentinel among the members. -/
theorem test_configure_bad_sets :
    seen (exec .configure (withSet ((List.range 256).map (BitVec.ofNat 8)))) = some (some (.refused .badReadSet), []) ∧
      seen (exec .configure (withSet [0x00, 0x0A])) = some (some (.refused .badReadSet), []) := by decide +kernel

/-- VC1, VC2. -/
theorem test_classify :
    seen (exec (.classify 0x0A) (ready .option3 cmds 0 0 (answers true 64 true []))) =
        some (some (.ok (some true)), []) ∧
      seen (exec (.classify 0x2C) (ready .option3 cmds 0 0 (answers true 64 true []))) =
        some (some (.ok (some false)), []) := by decide +kernel

/-- VH7. -/
theorem test_reservedOp :
    seen (exec (.reservedOp 5 0) (fresh 0 0 (answers true 64 true []))) = some (some (.refused .reservedOp), []) := by
  decide +kernel

/-- VN1: a native write, T = 4. -/
theorem test_send_native :
    seen (exec (.sendCommand 0x2A)
        (holding 0x1000 [0, 0, 0, 0xEF] (ready .option1 [] 0x1000 4 (answers true 4 true [ok, ok, ok])))) =
      some (some (.ok none), [w9 [0x02A], w9 [0x100, 0x100], w9 [0x100, 0x1EF]]) := by decide +kernel

/-- VE18: an emulated write of 20 bytes, T = 18. -/
theorem test_send_emulated :
    seen (exec (.sendCommand 0x2C)
        (holding 0x2000 ((List.range 20).map (BitVec.ofNat 8))
          (ready .option1 [] 0x2000 20 (answers false 18 true [ok, ok, ok])))) =
      some (some (.ok none),
        [w8 [0, 0, 0, 0, 0, 0, 0, 0, 0x2C],
          w8 [0x80, 0x40, 0x60, 0x50, 0x38, 0x24, 0x16, 0x0D, 0x07, 0x84, 0x42, 0x61, 0x50, 0xB8, 0x64, 0x36, 0x1D, 0x0F],
          w8 [0x88, 0x44, 0x62, 0x51, 0x30, 0, 0, 0]]) := by decide +kernel

/-- VR3: a dummy-clock read of 4 bytes. -/
theorem test_read_dummy_clock :
    bytesAt 0x4000 4 (exec (.readCommand 0x09)
        (ready .option3 cmds 0x4000 4 (answers true 64 true [ok, .ok [0x00, 0xC3, 0x5A, 0x0F, 0xF0]]))) =
      some [0x01, 0x86, 0xB4, 0x1F] := by decide +kernel

/-- VR14: the variant check comes before the length check. -/
theorem test_read_priority :
    seen (exec (.readCommand 0x04) (ready .option1 cmds 0x4000 5 (answers true 64 true []))) =
      some (some (.err .unsupported), []) := by decide +kernel

/-- VD1 and VD5: bytes 0x9C and 0x9E. -/
theorem test_isDisplayOn :
    (seen (exec .isDisplayOn (ready .option3 cmds 0 0 (answers true 64 true [ok, .ok [0x9C]])))).map (·.1) =
        some (some (.ok (some true))) ∧
      (seen (exec .isDisplayOn (ready .option3 cmds 0 0 (answers true 64 true [ok, .ok [0x9E]])))).map (·.1) =
        some (some (.ok (some false))) := by decide +kernel

/-- R121, R122: words 0x02A and 0x15A. -/
theorem test_native_words :
    seen (exec (.n9Cmd 0x2A) (fresh 0 0 (answers true 64 true [ok]))) = some (some (.ok none), [w9 [0x02A]]) ∧
      seen (exec (.n9Data 0x5A) (fresh 0 0 (answers true 64 true [ok]))) = some (some (.ok none), [w9 [0x15A]]) := by
  decide +kernel

/-- VE14, VE12, VE1, VE8: the command frame, a full group, and the shortest and longest partial groups. -/
theorem test_frames :
    seen (exec (.e8Cmd 0x2C) (fresh 0 0 (answers true 64 true [ok]))) =
        some (some (.ok none), [w8 [0, 0, 0, 0, 0, 0, 0, 0, 0x2C]]) ∧
      seen (exec (.e8Full 0x80 0x80 0x80 0x80 0x80 0x80 0x80 0x80) (fresh 0 0 (answers true 64 true [ok]))) =
        some (some (.ok none), [w8 [0xC0, 0x60, 0x30, 0x18, 0x0C, 0x06, 0x03, 0x01, 0x80]]) ∧
      seen (exec (.e8Part1 0xAA) (fresh 0 0 (answers true 64 true [ok]))) =
        some (some (.ok none), [w8 [0xD5, 0, 0, 0, 0, 0, 0, 0]]) ∧
      seen (exec (.e8Part7 0xFF 0xFF 0xFF 0xFF 0xFF 0xFF 0xFF) (fresh 0 0 (answers true 64 true [ok]))) =
        some (some (.ok none), [w8 [0xFF, 0xFF, 0xFF, 0xFF, 0xFF, 0xFF, 0xFF, 0xFE]]) := by decide +kernel

/-- R141: E8.PART2 to E8.PART6, from VE4, VE5, VE6 and the bits `1 00000001` repeated. -/
theorem test_middle_frames :
    seen (exec (.e8Part2 0x12 0x34) (fresh 0 0 (answers true 64 true [ok]))) =
        some (some (.ok none), [w8 [0x89, 0x4D, 0, 0, 0, 0, 0, 0]]) ∧
      seen (exec (.e8Part3 0x5A 0xA5 0x3C) (fresh 0 0 (answers true 64 true [ok]))) =
        some (some (.ok none), [w8 [0xAD, 0x69, 0x67, 0x80, 0, 0, 0, 0]]) ∧
      seen (exec (.e8Part4 0 0 0 0xEF) (fresh 0 0 (answers true 64 true [ok]))) =
        some (some (.ok none), [w8 [0x80, 0x40, 0x20, 0x1E, 0xF0, 0, 0, 0]]) ∧
      seen (exec (.e8Part5 1 1 1 1 1) (fresh 0 0 (answers true 64 true [ok]))) =
        some (some (.ok none), [w8 [0x80, 0xC0, 0x60, 0x30, 0x18, 0x08, 0, 0]]) ∧
      seen (exec (.e8Part6 1 1 1 1 1 1) (fresh 0 0 (answers true 64 true [ok]))) =
        some (some (.ok none), [w8 [0x80, 0xC0, 0x60, 0x30, 0x18, 0x0C, 0x04, 0]]) := by decide +kernel

/-- R181, R182: the Option 3 words by themselves. -/
theorem test_option3_words :
    seen (exec (.o3Cmd 0x2C) (fresh 0 0 (answers true 64 true [ok]))) =
        some (some (.ok none), [.sel .cmd, w8 [0x2C]]) ∧
      seen (exec (.o3Data8 0x1F) (fresh 0 0 (answers true 64 true [ok]))) =
        some (some (.ok none), [.sel .data, w8 [0x1F]]) ∧
      seen (exec (.o3Data16 0xF81F) (fresh 0 0 (answers true 64 true [ok]))) =
        some (some (.ok none), [.sel .data, w16 [0xF81F]]) := by decide +kernel

/-- VR2, VR3 and R206: the read formats by themselves. -/
theorem test_read_formats :
    bytesAt 0x4000 3 (exec (.o3Rddc3 1 0x24 0x68 0xAD 0x7F) (fresh 0x4000 0 (answers true 64 true []))) =
        some [0x24, 0x68, 0xAD] ∧
      bytesAt 0x4000 4 (exec (.o3Rddc4 0 0x01 0x86 0xB4 0x1F 0x70) (fresh 0x4000 0 (answers true 64 true []))) =
        some [0x01, 0x86, 0xB4, 0x1F] ∧
      bytesAt 0x4000 2 (exec (.o3Rd8 0x9C) (fresh 0x4000 0 (answers true 64 true []))) = some [0x9C, 0x00] := by
  decide +kernel

/-- VO3 and VO8: a 16-bit data phase of a little-endian host, and an odd length. -/
theorem test_send_wide :
    seen (exec (.sendCommand 0x2C)
        (holding 0x3000 [0x1F, 0xF8, 0x00, 0xF8] (ready .option3 [] 0x3000 4 (answers true 64 true [ok, ok])))) =
        some (some (.ok none), [.sel .cmd, w8 [0x2C], .sel .data, w16 [0xF81F, 0xF800]]) ∧
      seen (exec (.sendCommand 0x2C) (ready .option3 [] 0x3000 5 (answers true 64 true [ok, ok]))) =
        some (some (.refused .oddLength16), []) := by decide +kernel

/-- A step takes the request off the queue and runs it; words of no row are refused. -/
theorem test_step :
    seen (step (asking [0x01, 0x11] (ready .option1 [] 0 0 (answers false 9 true [ok])))) =
        some (some (.ok none), [w8 [0, 0, 0, 0, 0, 0, 0, 0, 0x11]]) ∧
      seen (step (asking [0x00, 0x01] (fresh 0 0 (answers false 9 true [])))) = none := by decide +kernel

/-- U10 and R148: a command stream of two bytes; VE1: a data stream of one byte given to the encoder. -/
theorem test_direct_encoder :
    seen (step (encoding false [0x2C, 0x2C] (fresh 0 0 (answers false 9 true [ok])))) =
        some (some (.refused .cmdLength), []) ∧
      seen (step (encoding true [0xAA] (fresh 0 0 (answers false 9 true [ok])))) =
        some (some (.ok none), [w8 [0xD5, 0, 0, 0, 0, 0, 0, 0]]) := by decide +kernel

/-- A table word placed for the next step is run by it. -/
theorem test_withFetchWord :
    seen (step ((ready .option1 [] 0 0 (answers false 9 true [ok])).withFetchWord 16 0x111)) =
      some (some (.ok none), [w8 [0, 0, 0, 0, 0, 0, 0, 0, 0x11]]) := by decide +kernel

/-! Witnesses: for every statement of Obligations.lean with hypotheses, a state and operands that meet them together, each
clause at a boundary of its range. -/

/-- An emulated write call about to be made, T at its least. -/
def writing : State := holding 0x2000 [1, 2, 3] (ready .option1 [] 0x2000 3 (answers false 9 true [ok, ok]))

/-- An Option 3 read call about to be made: one byte of a normal read. -/
def reading : State := ready .option3 cmds 0x4000 1 (answers true 64 true [ok, .ok [0x9C]])

/-- The same with a length and a transport's answers. -/
def readingOf (n : Nat) (alloc : Bool) (xs : List XferAnswer) : State :=
  ready .option3 cmds 0x4000 n (answers true 64 alloc xs)

/-- An Option 3 write of `n` bytes at 0x3000 with ceiling T, on a transport with or without 16-bit words. -/
def writing3 (wide : Bool) (n t : Nat) (alloc : Bool) (xs : List XferAnswer) : State :=
  holding 0x3000 [0x1F, 0xF8, 0x00, 0xF8] (ready .option3 [] 0x3000 n (answers wide t alloc xs))

/-- The request queue of the next two witnesses is not empty. -/
theorem witness_StepKeepsInvariant : (asking [0x01, 0x11] writing).Inv ∧ ∃ t, step (asking [0x01, 0x11] writing) = .next t :=
  ⟨⟨by decide +kernel, by decide +kernel, rfl, rfl, by decide, fun _ => ⟨fun _ => rfl, by decide +kernel, by decide +kernel⟩⟩,
    ⟨_, rfl⟩⟩

theorem witness_ReadyConfigurationIsPermanent :
    (asking [0x01, 0x11] writing).phase = .ready ∧ ∃ t, step (asking [0x01, 0x11] writing) = .next t := ⟨rfl, ⟨_, rfl⟩⟩

theorem witness_StepRunsDecodedRequest :
    (asking [0x05, 0x00] writing).pending = [writing.requestOf .hostSel [0x05, 0x00]] ∧
      decode .hostSel [0x05, 0x00] = .ok (.reservedOp 5 0) ∧ (Instr.reservedOp 5 0).wellFormed = true ∧
      (asking [0x00, 0x01] writing).pending = [writing.requestOf .hostSel [0x00, 0x01]] ∧
      decode .hostSel [0x00, 0x01] = .error .noSelector ∧ streamControl .hostSel = none ∧
      (encoding true [0xAA] writing).pending = [⟨[], .e8Stream true, [0xAA], writing.args⟩] ∧
      writing.pending = [] := by decide +kernel

theorem witness_DecodeEncodeAgree : (Instr.reservedOp 4 0xFF).wellFormed = true := by decide

theorem witness_EncodeDecodeAgree :
    decode .e8 [0x80, 0, 0, 0, 0, 0, 0, 0] = .ok (.e8Part1 0) ∧
      decode .hostSel [0x04, 0x00] = .ok (.reservedOp 4 0) := by decide +kernel

theorem witness_PhaseGatesHostOperations :
    (fresh 0 0 (answers true 64 true [])).phase ≠ .ready ∧ writing.phase = .ready ∧
      ∃ t, exec (.sendCommand 0x2A) writing = .next t := ⟨by decide, rfl, ⟨_, rfl⟩⟩

/-- For NativeWordsAreSent, CommandFrameIsSent, FullGroupIsTheTablePattern, PartialGroupsAreTheTablePatterns and
OptionThreeWordsAreSent. -/
theorem witness_leaf_transfer_completes : (fresh 0 0 (answers true 64 true [ok])).xferAnswer 0 = .ok [] := by decide

theorem witness_LeafTransferFailures :
    (leafPlan (.n9Cmd 0x2A)).isSome = true ∧ (leafPlan (.e8Part7 0 1 2 3 4 5 6)).isSome = true ∧
      (leafPlan (.o3Data16 0)).isSome = true ∧
      (fresh 0 0 (answers true 64 true [fail 3])).xferAnswer 0 = .err (.ofIndex 3) 0 ∧
      (fresh 0 0 (answers true 64 true [.never])).xferAnswer 0 = .never := ⟨rfl, rfl, rfl, rfl, rfl⟩

/-- The last addresses that leave room for 1, 3 and 4 bytes. -/
theorem witness_ReadFormatsDecodeIntoMemory :
    (fresh 0xFFFFFFFF 0 (answers true 64 true [])).mem.wf = true ∧
      (fresh 0xFFFFFFFF 0 (answers true 64 true [])).argAddr + 1 ≤ 2 ^ params.addrW ∧
      (fresh 0xFFFFFFFD 0 (answers true 64 true [])).argAddr + 3 ≤ 2 ^ params.addrW ∧
      (fresh 0xFFFFFFFC 0 (answers true 64 true [])).argAddr + 4 ≤ 2 ^ params.addrW := by decide +kernel

/-- The first address that does not leave room for 3 bytes. -/
theorem witness_ReadFormatsOutsideSpaceAreRefused :
    (fresh 0xFFFFFFFE 0 (answers true 64 true [])).mem.wf = true ∧ (Instr.o3Rddc3 0 1 2 3 0).port = .rddc ∧
      2 ^ params.addrW < (fresh 0xFFFFFFFE 0 (answers true 64 true [])).argAddr +
        destLength (.o3Rddc3 0 1 2 3 0) (fresh 0xFFFFFFFE 0 (answers true 64 true [])) := by decide +kernel

/-- The state inside a call whose ceiling is the least one. -/
theorem witness_NativeCommandStreamIsOneTransfer :
    2 ≤ (State.setCall { Call.idle with t := 2 } (fresh 0 0 (answers true 2 true [ok]))).call.t ∧
      (State.setCall { Call.idle with t := 2 } (fresh 0 0 (answers true 2 true [ok]))).xferAnswer 0 = .ok [] := by
  decide +kernel

/-- T = 2: three transfers for two bytes. -/
theorem witness_SendNativeCompletes :
    let s := ready .option1 [] 0x1000 2 (answers true 2 true [ok, ok, ok])
    (s.phase = .ready ∧ s.classify 0x2A = false ∧ s.variant = .option1 ∧ s.supports9 = true ∧
        s.fits s.argAddr s.argLen = true ∧ 2 ≤ s.maxXfer ∧ s.allocAnswer = true ∧
        1 + (transfers (.n9 true) s.maxXfer s.sourceBytes).length = 3) ∧
      ∀ j, j < 3 → s.xferAnswer j = .ok [] := by decide +kernel

/-- T = 9. -/
theorem witness_SendEmulatedCompletes :
    (writing.phase = .ready ∧ writing.classify 0x2A = false ∧ writing.variant = .option1 ∧ writing.supports9 = false ∧
        writing.fits writing.argAddr writing.argLen = true ∧ 9 ≤ writing.maxXfer ∧ writing.allocAnswer = true ∧
        1 + (transfers .e8 writing.maxXfer writing.sourceBytes).length = 2) ∧
      ∀ j, j < 2 → writing.xferAnswer j = .ok [] := by decide +kernel

/-- A 16-bit data phase at T = 2, and an 8-bit one at T = 1. -/
theorem witness_SendOptionThreeCompletes :
    let s := writing3 true 2 2 true [ok, ok]
    let u := writing3 false 1 1 true [ok, ok]
    (s.phase = .ready ∧ s.classify 0x2C = false ∧ s.variant = .option3 ∧ s.allocAnswer = true ∧
        1 + (transfers (.o3x16 .le) s.maxXfer s.sourceBytes).length = 2 ∧
        u.phase = .ready ∧ u.classify 0x2C = false ∧ u.variant = .option3 ∧ u.allocAnswer = true ∧
        1 + (transfers .o3x8 u.maxXfer u.sourceBytes).length = 2) ∧
      (∀ j, j < 2 → s.xferAnswer j = .ok []) ∧ ∀ j, j < 2 → u.xferAnswer j = .ok [] := by decide +kernel

theorem witness_writePasses :
    (writing3 true 2 2 true [ok, ok]).writePasses 0x2C ∧ (writing3 false 1 1 true [ok, ok]).writePasses 0x2C ∧
      writing.writePasses 0x2A := by
  refine ⟨⟨by decide +kernel, ?_⟩, ⟨by decide +kernel, ?_⟩, ⟨by decide +kernel, ?_⟩⟩
  · exact ⟨by decide +kernel, fun _ => by decide +kernel⟩
  · exact ⟨by decide +kernel, fun h => absurd h.2 (by decide +kernel)⟩
  · exact (by decide +kernel : 9 ≤ writing.maxXfer)

/-- Calls whose plan is done, fails, and blocks; `witness_writePasses` has that the first passes its checks, and the others
differ from it in the transfers' answers only. -/
theorem witness_WriteCallRefinesPlan :
    let s := fun xs => writing3 true 2 2 true xs
    (s [ok, ok]).phase = .ready ∧ (s [ok, ok]).classify 0x2C = false ∧ (s [ok, ok]).allocAnswer = true ∧
      (play (s [ok, ok]).xferAnswer 0 ((s [ok, ok]).writePlan 0x2C)).2 = .done ∧
      (play (s [ok, fail 2]).xferAnswer 0 ((s [ok, fail 2]).writePlan 0x2C)).2 = .failed (.ofIndex 2) ∧
      (play (s [ok, .never]).xferAnswer 0 ((s [ok, .never]).writePlan 0x2C)).2 = .blocked :=
  ⟨by decide, by decide +kernel, by decide +kernel, by decide +kernel, rfl, by decide +kernel⟩

theorem witness_NativeUndersizedIsInvalid :
    let s := ready .option1 [] 0x1000 4 (answers true 1 true [])
    s.phase = .ready ∧ s.classify 0x2A = false ∧ s.fits s.argAddr s.argLen = true ∧ s.variant = .option1 ∧
      s.supports9 = true ∧ s.maxXfer < 2 := by decide +kernel

theorem witness_EmulatedUndersizedIsInvalid :
    let s := ready .option1 [] 0 0 (answers false 8 true [])
    s.phase = .ready ∧ s.classify 0x11 = false ∧ s.fits s.argAddr s.argLen = true ∧ s.variant = .option1 ∧
      s.supports9 = false ∧ s.maxXfer < 9 := by decide +kernel

/-- T = 0, and a 16-bit data phase with T = 1. -/
theorem witness_OptionThreeUndersizedIsInvalid :
    let s := writing3 true 0 0 true []
    let u := writing3 true 1 1 true []
    s.phase = .ready ∧ s.classify 0x2C = false ∧ s.fits s.argAddr s.argLen = true ∧ s.variant = .option3 ∧
      s.maxXfer < 1 ∧ u.phase = .ready ∧ u.classify 0x2C = false ∧ u.fits u.argAddr u.argLen = true ∧
      u.variant = .option3 ∧ (0x2C : Byte) = u.params.memWriteCmd ∧ u.supports16 = true ∧ 0 < u.argLen ∧
      u.maxXfer < 2 := by decide +kernel

theorem witness_OddWideLengthIsRefused :
    let s := writing3 true 1 2 true []
    s.phase = .ready ∧ s.classify 0x2C = false ∧ s.fits s.argAddr s.argLen = true ∧ s.variant = .option3 ∧
      2 ≤ s.maxXfer ∧ (0x2C : Byte) = s.params.memWriteCmd ∧ s.supports16 = true ∧ s.argLen % 2 = 1 := by
  decide +kernel

/-- One byte too many, on a read, a write and a SEND_COMMAND that is a read. -/
theorem witness_BufferOutsideSpaceIsRefused :
    let s := ready .option3 cmds 0xFFFFFFFF 2 (answers true 64 true [])
    s.phase = .ready ∧ s.mem.wf = true ∧ 0 < s.argLen ∧ 2 ^ s.params.addrW < s.argAddr + s.argLen ∧
      s.classify 0x2A = false ∧ s.classify 0x0A = true := by decide +kernel

/-- A write call (its checks pass as in `witness_writePasses`), a normal read of 1 byte and a dummy-clock read of 3. -/
theorem witness_AllocationFailureIsResourceExhausted :
    let s := writing3 true 2 2 false []
    let u := readingOf 1 false []
    let v := readingOf 3 false []
    s.phase = .ready ∧ s.mem.wf = true ∧ s.allocAnswer = false ∧ s.classify 0x2C = false ∧
      u.phase = .ready ∧ u.mem.wf = true ∧ u.allocAnswer = false ∧ u.classify 0x0A = true ∧ u.variant = .option3 ∧
      u.fits u.argAddr u.argLen = true ∧ isDcCmd u.params 0x0A = false ∧ 0 < u.argLen ∧
      v.phase = .ready ∧ v.mem.wf = true ∧ v.allocAnswer = false ∧ v.classify 0x04 = true ∧ v.variant = .option3 ∧
      v.fits v.argAddr v.argLen = true ∧ isDcCmd v.params 0x04 = true ∧ v.argLen = 3 := by decide +kernel

theorem witness_AllocationFailure_writePasses : (writing3 true 2 2 false []).writePasses 0x2C :=
  ⟨by decide +kernel, by decide +kernel, fun _ => by decide +kernel⟩

theorem witness_ClassifiedSendIsARead :
    let s := ready .option1 cmds 0x4000 1 (answers true 64 true [])
    reading.phase = .ready ∧ reading.classify 0x0A = true ∧ s.phase = .ready ∧ s.classify 0x0A = true ∧
      s.variant = .option1 ∧ s.fits s.argAddr s.argLen = true := by decide +kernel

theorem witness_ReadCopiesBytes :
    reading.phase = .ready ∧ reading.mem.wf = true ∧ reading.classify 0x0A = true ∧ reading.variant = .option3 ∧
      isDcCmd reading.params 0x0A = false ∧ 0 < reading.argLen ∧ reading.fits reading.argAddr reading.argLen = true ∧
      reading.allocAnswer = true ∧ reading.xferAnswer 0 = .ok [] ∧ reading.xferAnswer 1 = .ok [0x9C] := by
  decide +kernel

/-- Lengths 3 and 4, both commands. -/
theorem witness_DummyClockReadShifts :
    let s := readingOf 3 true [ok, .ok [0x12, 0x34, 0x56, 0x80]]
    let u := readingOf 4 true [ok, .ok [0x00, 0xC3, 0x5A, 0x0F, 0xF0]]
    s.phase = .ready ∧ s.mem.wf = true ∧ s.classify 0x04 = true ∧ s.variant = .option3 ∧
      (0x04 : Byte) = s.params.dcCmds.first ∧ s.argLen = 3 ∧ s.fits s.argAddr s.argLen = true ∧ s.allocAnswer = true ∧
      s.xferAnswer 0 = .ok [] ∧ s.xferAnswer 1 = .ok [0x12, 0x34, 0x56, 0x80] ∧
      u.phase = .ready ∧ u.mem.wf = true ∧ u.classify 0x09 = true ∧ u.variant = .option3 ∧
      (0x09 : Byte) = u.params.dcCmds.second ∧ u.argLen = 4 ∧ u.fits u.argAddr u.argLen = true ∧ u.allocAnswer = true ∧
      u.xferAnswer 0 = .ok [] ∧ u.xferAnswer 1 = .ok [0x00, 0xC3, 0x5A, 0x0F, 0xF0] := by decide +kernel

/-- No set, a command not in it, and Option 1. -/
theorem witness_UnsupportedReads :
    let s := ready .option3 [] 0x4000 1 (answers true 64 true [])
    let u := ready .option1 cmds 0x4000 1 (answers true 64 true [])
    s.phase = .ready ∧ s.mem.wf = true ∧ s.fits s.argAddr s.argLen = true ∧ s.readsetValid = false ∧
      reading.phase = .ready ∧ reading.mem.wf = true ∧ reading.fits reading.argAddr reading.argLen = true ∧
      reading.classify 0x2C = false ∧
      u.phase = .ready ∧ u.mem.wf = true ∧ u.fits u.argAddr u.argLen = true ∧ u.variant = .option1 := by
  decide +kernel

/-- Lengths 2 and 5, beside the two that are good, and 0. -/
theorem witness_DummyClockLengthIsChecked :
    ∀ n ∈ [0, 2, 5], let s := readingOf n true []
      s.phase = .ready ∧ s.mem.wf = true ∧ s.fits s.argAddr s.argLen = true ∧ s.classify 0x04 = true ∧
        s.variant = .option3 ∧ (0x04 : Byte) = s.params.dcCmds.first ∧ s.argLen ≠ 3 ∧ s.argLen ≠ 4 := by decide +kernel

theorem witness_ZeroLengthReadIsRefused :
    let s := readingOf 0 true []
    s.phase = .ready ∧ s.mem.wf = true ∧ s.classify 0x0A = true ∧ s.variant = .option3 ∧
      (0x0A : Byte) ≠ s.params.dcCmds.first ∧ (0x0A : Byte) ≠ s.params.dcCmds.second ∧ s.argLen = 0 := by decide +kernel

/-- A normal read of 1 byte and a dummy-clock read of 4, with a failing command transfer, a failing read transfer and one
that never returns. -/
theorem witness_ReadBusErrors :
    (∀ xs ∈ [[fail 3], [ok, fail 4], [.never], [ok, .never]], let s := readingOf 1 true xs
        s.phase = .ready ∧ s.mem.wf = true ∧ s.classify 0x0A = true ∧ s.variant = .option3 ∧
          isDcCmd s.params 0x0A = false ∧ 0 < s.argLen ∧ s.fits s.argAddr s.argLen = true ∧ s.allocAnswer = true) ∧
      (∀ xs ∈ [[fail 3], [ok, fail 4], [.never], [ok, .never]], let s := readingOf 4 true xs
        s.phase = .ready ∧ s.mem.wf = true ∧ s.classify 0x09 = true ∧ s.variant = .option3 ∧
          isDcCmd s.params 0x09 = true ∧ s.argLen = 4 ∧ s.fits s.argAddr s.argLen = true ∧ s.allocAnswer = true) ∧
      (readingOf 1 true [fail 3]).xferAnswer 0 = .err (.ofIndex 3) 0 ∧
      (readingOf 1 true [ok, fail 4]).xferAnswer 0 = .ok [] ∧
      (readingOf 1 true [ok, fail 4]).xferAnswer 1 = .err (.ofIndex 4) 0 ∧
      (readingOf 1 true [.never]).xferAnswer 0 = .never ∧
      (readingOf 1 true [ok, .never]).xferAnswer 1 = .never :=
  ⟨by decide +kernel, by decide +kernel, rfl, rfl, rfl, rfl, rfl⟩

theorem witness_DisplayOnComparesMaskedByte :
    reading.phase = .ready ∧ reading.variant = .option3 ∧ reading.classify reading.params.powerModeCmd = true ∧
      isDcCmd reading.params reading.params.powerModeCmd = false ∧ reading.allocAnswer = true ∧
      reading.xferAnswer 0 = .ok [] ∧ reading.xferAnswer 1 = .ok [0x9C] := by decide +kernel

/-- Each of the four causes without an event, each of the two failing transfers, and each that never returns. -/
theorem witness_DisplayOnErrorsAreFalse :
    let dc := { reading with params := { params with powerModeCmd := 0x04 } }
    (ready .option1 cmds 0 0 (answers true 64 true [])).phase = .ready ∧
      (ready .option1 cmds 0 0 (answers true 64 true [])).variant = .option1 ∧
      (ready .option3 [] 0 0 (answers true 64 true [])).phase = .ready ∧
      (ready .option3 [] 0 0 (answers true 64 true [])).classify params.powerModeCmd = false ∧
      dc.phase = .ready ∧ isDcCmd dc.params dc.params.powerModeCmd = true ∧
      (readingOf 1 false []).phase = .ready ∧ (readingOf 1 false []).allocAnswer = false ∧
      (∀ xs ∈ [[fail 3], [ok, fail 4], [.never], [ok, .never]], let s := readingOf 1 true xs
        s.phase = .ready ∧ s.variant = .option3 ∧ s.classify s.params.powerModeCmd = true ∧
          isDcCmd s.params s.params.powerModeCmd = false ∧ s.allocAnswer = true) ∧
      (readingOf 1 true [fail 3]).xferAnswer 0 = .err (.ofIndex 3) 0 ∧
      (readingOf 1 true [ok, fail 4]).xferAnswer 0 = .ok [] ∧
      (readingOf 1 true [ok, fail 4]).xferAnswer 1 = .err (.ofIndex 4) 0 ∧
      (readingOf 1 true [.never]).xferAnswer 0 = .never ∧ (readingOf 1 true [ok, .never]).xferAnswer 0 = .ok [] ∧
      (readingOf 1 true [ok, .never]).xferAnswer 1 = .never :=
  ⟨by decide +kernel, by decide +kernel, by decide +kernel, by decide +kernel, by decide +kernel, by decide +kernel,
    by decide +kernel, by decide +kernel, by decide +kernel, rfl, rfl, rfl, rfl, rfl, rfl⟩

theorem witness_DisplayOnNeverFails : ∃ t, exec .isDisplayOn reading = .next t := ⟨_, rfl⟩

/-- For MemoryChangesOnlyInDestination, OnlyConfigureChangesConfiguration, OperationsEndAtRest, EventsGrowAndSelectFollows
and SequencerMovesForward: a read, a write, a read format, CONFIGURE and CLASSIFY that answer next states. -/
theorem witness_exec_next :
    reading.mem.wf = true ∧ (∃ t, exec (.readCommand 0x0A) reading = .next t) ∧
      (∃ t, exec (.sendCommand 0x2A) writing = .next t) ∧ (∃ t, exec (.o3Rd8 0x9C) reading = .next t) ∧
      (∃ t, exec .configure reading = .next t) ∧ ∃ t, exec (.classify 0x0A) reading = .next t :=
  ⟨rfl, ⟨_, rfl⟩, ⟨_, rfl⟩, ⟨_, rfl⟩, ⟨_, rfl⟩, ⟨_, rfl⟩⟩

theorem witness_OptionOneNeverSelects :
    isHostOp (.sendCommand 0x2A) = true ∧ writing.variant = .option1 ∧
      ∃ t, exec (.sendCommand 0x2A) writing = .next t := ⟨rfl, rfl, ⟨_, rfl⟩⟩

/-- On Option 1 and on Option 3. -/
theorem witness_TransportIsSampledOncePerWrite :
    (∀ s ∈ [writing, writing3 true 2 2 true [ok, ok]],
        s.phase = .ready ∧ s.classify 0x2A = false ∧ s.fits s.argAddr s.argLen = true) ∧
      (∃ t, exec (.sendCommand 0x2A) writing = .next t) ∧
      (∃ t, exec (.sendCommand 0x2A) (writing3 true 2 2 true [ok, ok]) = .next t) ∧
      ∃ t, exec (.readCommand 0x0A) reading = .next t :=
  ⟨by decide +kernel, ⟨_, rfl⟩, ⟨_, rfl⟩, ⟨_, rfl⟩⟩

/-- For NativeTransfersCarryTheWords, OptionThreeTransfersCarryTheData, ChunkSizeIsWholeGroups, EmulatedTransferLengths,
ReferenceDecodeRecoversStreams, FramesAreNineBitWords, WideWordsOnTheWire and TransfersAreBounded: ceilings and lengths at
the least values, on both sides of 8. -/
theorem witness_encoder_bounds :
    2 ≤ 2 ∧ 1 ≤ 1 ∧ 9 ≤ 9 ∧ ([] : List Byte).length % 2 = 0 ∧ 1 ≤ 7 ∧ 7 < 8 ∧ 8 ≤ 8 ∧
      (List.replicate 8 (0 : Byte)).length = 8 ∧ 1 ≤ ([0] : List Byte).length ∧
      (List.replicate 7 (0 : Byte)).length ≤ 7 ∧ 8 % 8 = 0 ∧ 8 ≤ 9 / 9 * 8 := by decide

/-- Two states with the same bytes at different places. -/
theorem witness_EmulatedSendIsDeterministic :
    let u := holding 0x9000 [1, 2, 3] (ready .option1 [] 0x9000 3 (answers false 9 true [ok, ok]))
    (∀ s ∈ [writing, u], s.phase = .ready ∧ s.classify 0x2A = false ∧ s.variant = .option1 ∧ s.supports9 = false ∧
        s.fits s.argAddr s.argLen = true) ∧
      writing.maxXfer = u.maxXfer ∧ writing.sourceBytes = u.sourceBytes ∧ writing.allocAnswer = u.allocAnswer ∧
      writing.io.xfer = u.io.xfer := by decide +kernel

theorem witness_EmulatedSendIsDeterministic_completes :
    (∃ t, exec (.sendCommand 0x2A) writing = .next t) ∧
      ∃ t, exec (.sendCommand 0x2A)
        (holding 0x9000 [1, 2, 3] (ready .option1 [] 0x9000 3 (answers false 9 true [ok, ok]))) = .next t :=
  ⟨⟨_, rfl⟩, ⟨_, rfl⟩⟩

/-- The two lengths beside 1, and a SEND_COMMAND that answers a next state. -/
theorem witness_CommandStreamLengthIsChecked :
    ([] : List Byte).length ≠ 1 ∧ ([0x2C, 0x2C] : List Byte).length ≠ 1 ∧
      ∃ t, exec (.sendCommand 0x2A) writing = .next t := ⟨by decide, by decide, ⟨_, rfl⟩⟩

/-- A command stream of one byte and a data stream, at T = 9 and T = 8, and the three ways the transfer can go. -/
theorem witness_DirectEncoderSendsStream :
    ([0x2C] : List Byte).length = 1 ∧
      (fresh 0 0 (answers false 8 true [])).maxXfer < 9 ∧ 9 ≤ (fresh 0 0 (answers false 9 true [ok])).maxXfer ∧
      (fresh 0 0 (answers false 9 true [ok])).allocAnswer = true ∧
      (∀ as ∈ [(transfers .e8 9 [0xAA]).map Action.write, [.write (.w8 (commandFrame 0x2C))]],
        (play (fresh 0 0 (answers false 9 true [ok])).xferAnswer 0 as).2 = .done ∧
          (play (fresh 0 0 (answers false 9 true [fail 1])).xferAnswer 0 as).2 = .failed (.ofIndex 1) ∧
          (play (fresh 0 0 (answers false 9 true [.never])).xferAnswer 0 as).2 = .blocked) := by
  refine ⟨rfl, by decide +kernel, by decide +kernel, by decide +kernel, fun as h => ?_⟩
  obtain rfl | rfl : as = _ ∨ as = _ := by simpa only [List.mem_cons, List.not_mem_nil, or_false] using h
  · exact ⟨by decide +kernel, rfl, by decide +kernel⟩
  · exact ⟨by decide +kernel, rfl, by decide +kernel⟩

theorem witness_NoParametersMeansNoDataPhase :
    let s := writing3 true 0 1 true [ok]
    s.phase = .ready ∧ s.classify 0x29 = false ∧ s.variant = .option3 ∧ s.argLen = 0 ∧ 1 ≤ s.maxXfer ∧
      s.allocAnswer = true ∧ s.xferAnswer 0 = .ok [] := by decide +kernel

end Sys2Proof.Tests
end

