-- ==== Sys2Proof/Proofs/AddressRange.lean ====
section
/-! PROOF. How a host operation is entered, how a call that ends in CHECK leaves the machine, and the address check of
20_memory.md R51. -/

namespace Sys2Proof.Machine

/-! What entering a call leaves alone: the operands, the address check and the classifier. -/

@[simp] theorem State.enter_argAddr (s : State) (q : Seq) : (s.enter q).argAddr = s.argAddr := rfl
@[simp] theorem State.enter_argLen (s : State) (q : Seq) : (s.enter q).argLen = s.argLen := rfl
@[simp] theorem State.enter_fits (s : State) (q : Seq) (addr n : Nat) : (s.enter q).fits addr n = s.fits addr n := rfl
@[simp] theorem State.enter_classify (s : State) (q : Seq) (cmd : Byte) :
    (s.enter q).classify cmd = s.classify cmd := rfl

/-- The one way a buffer fails the address check (R51, R52): it has bytes, and leaves the address space. -/
theorem State.fits_eq_false_iff (s : State) (addr n : Nat) :
    s.fits addr n = false ↔ 0 < n ∧ 2 ^ s.params.addrW < addr + n := by
  simp only [State.fits, Bool.or_eq_false_iff, beq_eq_false_iff_ne, decide_eq_false_iff_not, Nat.not_le,
    Nat.pos_iff_ne_zero]

/-! The host operations from READY. -/

/-- READ_COMMAND is a read call from CHECK (R236). -/
theorem exec_readCommand (cmd : Byte) (s : State) : exec (.readCommand cmd) s = readCall cmd (s.enter .check) := rfl

/-- SEND_COMMAND of a command that is no read is a write call from CHECK (R233). -/
theorem exec_sendCommand_write {cmd : Byte} {s : State} (hp : s.phase = .ready) (hc : s.classify cmd = false) :
    exec (.sendCommand cmd) s = (writeCall cmd (s.enter .check)).close := by
  simp [exec, execSendCommand, hp, hc]

/-- SEND_COMMAND of a command of the read set is READ_COMMAND (R235). -/
theorem exec_sendCommand_read {cmd : Byte} {s : State} (hp : s.phase = .ready) (hc : s.classify cmd = true) :
    exec (.sendCommand cmd) s = exec (.readCommand cmd) s := by
  simp [exec, execSendCommand, execReadCommand, hp, hc]

/-! Calls that end with what they entered with. -/

/-- The unspecified bytes a failed read leaves stay inside its destination (R57): the list of them is clipped to `n`. -/
theorem State.havoc_memSameOutside {s : State} (hwf : s.mem.wf = true) (dst n : Nat) :
    memSameOutside dst n s (s.havoc dst n) := by
  intro a ha
  rw [State.havoc_mem, Memory.read_writeBytes _ dst a hwf, if_neg]
  simp only [List.length_map, List.length_range]
  omega

/-- A write call that ends in its first state has changed nothing but its outcome. -/
theorem writeEnded_enter_finish (s : State) (q : Seq) (r : CallResult) :
    writeEnded s ((s.enter q).finish r) [] r := by
  simp [writeEnded, sameConfig, sameHost, atRest, selAfter]

/-- A read call that fails in its first state has changed nothing but its outcome and its destination. -/
theorem readEnded_enter_havoc_finish {s : State} (hwf : s.mem.wf = true) (dst n : Nat) (q : Seq) (r : CallResult) :
    readEnded dst n s (((s.enter q).havoc dst n).finish r) [] r := by
  have hmem : memSameOutside dst n s (((s.enter q).havoc dst n).finish r) :=
    State.havoc_memSameOutside (s := s.enter q) hwf dst n
  simp [readEnded, hmem, sameConfig, sameHost, atRest, selAfter]

theorem endedInCheck_enter_finish (s : State) (r : CallResult) :
    endedInCheck s ((s.enter .check).finish r) := ⟨rfl, rfl⟩

theorem endedInCheck_enter_havoc_finish (s : State) (dst n : Nat) (r : CallResult) :
    endedInCheck s (((s.enter .check).havoc dst n).finish r) := ⟨rfl, rfl⟩

/-! The address check comes right after the phase check, before the classifier, the variant, the route and the sampling
of the transport (R277). -/

/-- A read call whose destination leaves the address space is refused where it stands. -/
theorem readCall_of_not_fits {s : State} (cmd : Byte) (hp : s.phase = .ready)
    (hf : s.fits s.argAddr s.argLen = false) :
    readCall cmd s = .next ((s.havoc s.argAddr s.argLen).finish (.refused .addrRange)) := by
  have hflow : readFlow cmd s.argAddr s.argLen false s = .refuse .addrRange s := by simp [readFlow, hp]
  simp [readCall, hf, hflow, Flow.endRead]

/-- A write call whose source leaves the address space is refused where it stands. -/
theorem writeCall_of_not_fits {s : State} (cmd : Byte) (hf : s.fits s.argAddr s.argLen = false) :
    writeCall cmd s = .refuse .addrRange s := by
  simp [writeCall, hf]

/-- R51 for READ_COMMAND: refused in CHECK, with no byte outside the destination changed. -/
theorem readCommand_addrRange {cmd : Byte} {s : State} (hp : s.phase = .ready) (hwf : s.mem.wf = true)
    (hf : s.fits s.argAddr s.argLen = false) :
    ∃ t, exec (.readCommand cmd) s = .next t ∧
      readEnded s.argAddr s.argLen s t [] (.refused .addrRange) ∧ endedInCheck s t :=
  ⟨_, (exec_readCommand cmd s).trans (readCall_of_not_fits (s := s.enter .check) cmd hp hf),
    readEnded_enter_havoc_finish hwf _ _ _ _, endedInCheck_enter_havoc_finish _ _ _ _⟩

/-- R51 for a SEND_COMMAND that is a write: refused in CHECK, with memory as it was. -/
theorem sendCommand_addrRange {cmd : Byte} {s : State} (hp : s.phase = .ready) (hc : s.classify cmd = false)
    (hf : s.fits s.argAddr s.argLen = false) :
    ∃ t, exec (.sendCommand cmd) s = .next t ∧ writeEnded s t [] (.refused .addrRange) ∧ endedInCheck s t := by
  refine ⟨(s.enter .check).finish (.refused .addrRange), ?_, writeEnded_enter_finish _ _ _,
    endedInCheck_enter_finish _ _⟩
  rw [exec_sendCommand_write hp hc, writeCall_of_not_fits (s := s.enter .check) cmd hf]
  rfl

/-- Settles O30: the buffer fails the address check, and each of the three calls is refused there; a classified
SEND_COMMAND is the READ_COMMAND. -/
theorem bufferOutsideSpaceIsRefused : Obligations.BufferOutsideSpaceIsRefused := by
  intro cmd s hp hwf hn hout
  have hf : s.fits s.argAddr s.argLen = false := (s.fits_eq_false_iff _ _).mpr ⟨hn, hout⟩
  refine ⟨readCommand_addrRange hp hwf hf, fun hc => sendCommand_addrRange hp hc hf, fun hc => ?_⟩
  rw [exec_sendCommand_read hp hc]
  exact readCommand_addrRange hp hwf hf

end Sys2Proof.Machine
end

section
/-! PROOF. How a write call ends that one of the size checks of R233 stops, and the size check of the native route
(41_option1_native.md R124). -/

namespace Sys2Proof.Machine

/-- T is still to be sampled when a call is entered. -/
@[simp] theorem State.enter_maxXfer (s : State) (q : Seq) : (s.enter q).maxXfer = s.maxXfer := rfl

/-! Sampling the transport (R232). -/

/-- All that sampling writes: the outside world's answers and the per-call state (R25 to R27). -/
theorem State.sample_eq_setIo_setCall (s : State) : ∃ io c, s.sample = (s.setIo io).setCall c := by
  cases h : s.variant with
  | option1 => exact ⟨_, _, by rw [State.sample, h]⟩
  | option3 => exact ⟨_, _, by rw [State.sample, h]⟩

/-- T of a write call is what `MaxXfer` answers, under either VARIANT (R26). -/
@[simp] theorem State.sample_t (s : State) : s.sample.call.t = s.maxXfer := by
  cases h : s.variant with
  | option1 => rw [State.sample_option1 h]
  | option3 => rw [State.sample_option3 h]

/-- ROUTE is N9 on Option 1 where the transport can do 9-bit words (R25). -/
theorem State.sample_route_n9 {s : State} (hv : s.variant = .option1) (h9 : s.supports9 = true) :
    s.sample.call.route = .n9 := by
  simp [State.sample_option1 hv, h9]

/-! A write call that ends where its transport was sampled: the per-call state is released at the end (R273). -/

/-- What sampling writes is no part of what a write call's ending speaks of. -/
theorem writeEnded_enter_sample_finish (s : State) (q : Seq) (r : CallResult) :
    writeEnded s ((s.enter q).sample.finish r) [] r := by
  obtain ⟨io, c, h⟩ := (s.enter q).sample_eq_setIo_setCall
  simp [h, writeEnded, sameConfig, sameHost, atRest, selAfter]

theorem endedInCheck_enter_sample_finish (s : State) (r : CallResult) :
    endedInCheck s ((s.enter .check).sample.finish r) := by
  obtain ⟨io, c, h⟩ := (s.enter .check).sample_eq_setIo_setCall
  simp [h, endedInCheck]

/-! The size checks come after the address check and the sampling, and before the allocation (R277). -/

/-- A write call whose size check raises an error ends with it, before any scratch is asked for. -/
theorem writeCall_of_writeCheck_err {cmd : Byte} {s : State} {k : ErrKind}
    (hf : s.fits s.argAddr s.argLen = true) (hk : writeCheck cmd s.argLen s.sample = .err k s.sample) :
    writeCall cmd s = .err k s.sample := by
  simp [writeCall, hf, hk, Flow.andThen]

/-- A SEND_COMMAND that is a write and whose size check raises an error ends with it in CHECK, and changes nothing else. -/
theorem sendCommand_err_of_writeCheck {cmd : Byte} {s : State} {k : ErrKind} (hp : s.phase = .ready)
    (hc : s.classify cmd = false) (hf : s.fits s.argAddr s.argLen = true)
    (hk : writeCheck cmd s.argLen (s.enter .check).sample = .err k (s.enter .check).sample) :
    ∃ t, exec (.sendCommand cmd) s = .next t ∧ writeEnded s t [] (.err k) ∧ endedInCheck s t := by
  refine ⟨(s.enter .check).sample.finish (.err k), ?_, writeEnded_enter_sample_finish _ _ _,
    endedInCheck_enter_sample_finish _ _⟩
  rw [exec_sendCommand_write hp hc, writeCall_of_writeCheck_err (s := s.enter .check) hf hk]
  rfl

/-- The size check of the native route (R124): T must hold one 2-byte container. -/
theorem writeCheck_n9 {s : State} (cmd : Byte) (n : Nat) (hr : s.call.route = .n9) :
    writeCheck cmd n s = if s.call.t < 2 then .err .invalidArgument s else .go s := by
  simp [writeCheck, hr]

/-- Settles O26: the call's ROUTE is N9, and its size check finds T below 2. -/
theorem nativeUndersizedIsInvalid : Obligations.NativeUndersizedIsInvalid := by
  intro cmd s hp hc hf hv h9 ht
  have hroute : (s.enter .check).sample.call.route = .n9 := State.sample_route_n9 (s := s.enter .check) hv h9
  have hsmall : (s.enter .check).sample.call.t < 2 := by simpa using ht
  refine sendCommand_err_of_writeCheck hp hc hf ?_
  rw [writeCheck_n9 cmd s.argLen hroute, if_pos hsmall]

end Sys2Proof.Machine
end

section
/-! PROOF. The size check of the emulated route (42_option1_emulated.md R147): the write call ends in CHECK, as on the
native route. -/

namespace Sys2Proof.Machine

/-- ROUTE is E8 on Option 1 where the transport cannot do 9-bit words (R25). -/
theorem State.sample_route_e8 {s : State} (hv : s.variant = .option1) (h9 : s.supports9 = false) :
    s.sample.call.route = .e8 := by
  simp [State.sample_option1 hv, h9]

/-- The size check of the emulated route (R147): T must hold one frame. The command stream has the one byte R148 asks
for. -/
theorem writeCheck_e8 {s : State} (cmd : Byte) (n : Nat) (hr : s.call.route = .e8) :
    writeCheck cmd n s = if s.call.t < 9 then .err .invalidArgument s else .go s := by
  simp [writeCheck, hr, e8Check, Stream.command]

/-- Settles O27: the call's ROUTE is E8, and its size check finds T below 9. -/
theorem emulatedUndersizedIsInvalid : Obligations.EmulatedUndersizedIsInvalid := by
  intro cmd s hp hc hf hv h9 ht
  have hroute : (s.enter .check).sample.call.route = .e8 := State.sample_route_e8 (s := s.enter .check) hv h9
  have hsmall : (s.enter .check).sample.call.t < 9 := by simpa using ht
  refine sendCommand_err_of_writeCheck hp hc hf ?_
  rw [writeCheck_e8 cmd s.argLen hroute, if_pos hsmall]

end Sys2Proof.Machine
end

section
/-! PROOF. PACK read word by word (42_option1_emulated.md R141 to R143): the words of a frame, and what the reference
decoder (R153) takes from it. -/

namespace Sys2Proof.Machine

/-! The value of a byte list (R153). -/

theorem joined_append_singleton (l : List Byte) (b : Byte) : joined (l ++ [b]) = joined l * 256 + b.toNat := by
  simp [joined]

/-- The bytes of a value, without the last one, are those of the value above its low byte. -/
theorem bytesOf_succ {w : Nat} (k : Nat) (v : BitVec w) :
    bytesOf (k + 1) v = bytesOf k (v >>> 8) ++ [v.extractLsb' 0 8] := by
  simp only [bytesOf, List.range_succ, List.map_append, List.map_cons, List.map_nil]
  congr 1
  · refine List.map_congr_left fun j hj => ?_
    have hj : j < k := List.mem_range.mp hj
    apply BitVec.eq_of_toNat_eq
    simp [← Nat.shiftRight_add, show 8 * (k - j) = 8 + 8 * (k - 1 - j) by omega]
  · simp

/-- The big-endian bytes of a value have its low bits as their value. -/
theorem joined_bytesOf {w : Nat} (k : Nat) (v : BitVec w) : joined (bytesOf k v) = v.toNat % 2 ^ (8 * k) := by
  induction k generalizing v with
  | zero => simp [bytesOf, joined, Nat.mod_one]
  | succ k ih =>
    rw [bytesOf_succ, joined_append_singleton, ih]
    simp only [BitVec.toNat_ushiftRight, BitVec.extractLsb'_toNat, Nat.shiftRight_eq_div_pow]
    rw [show 8 * (k + 1) = 8 + 8 * k by omega, Nat.pow_add, Nat.mod_mul]
    omega

@[simp] theorem length_bytesOf {w : Nat} (k : Nat) (v : BitVec w) : (bytesOf k v).length = k := by simp [bytesOf]

/-! The words of a frame (R153). -/

/-- Word i of an ACC, as (C, byte): R141's bits `ACC[63 − 9i]` and `ACC[62 − 9i : 55 − 9i]`. -/
def accWord (v : Acc) (i : Nat) : Bool × Byte := (v.getLsbD (63 - 9 * i), v.extractLsb' (55 - 9 * i) 8)

theorem joined_bytesOf_eight (v : Acc) : joined (bytesOf 8 v) = v.toNat := by
  rw [joined_bytesOf, Nat.mod_eq_of_lt v.isLt]

/-- The words of an 8-byte frame are those of its ACC; its last bit belongs to none. -/
theorem frameWords_bytesOf_eight (v : Acc) : frameWords (bytesOf 8 v) = (List.range 7).map (accWord v) := by
  simp only [frameWords, joined_bytesOf_eight, length_bytesOf]
  refine List.map_congr_left fun i hi => ?_
  have hi : i < 7 := List.mem_range.mp hi
  have hsh : 64 - 9 - 9 * i = 55 - 9 * i := by omega
  exact Prod.ext rfl (by rw [hsh]; rfl)

/-- The words of a 9-byte frame are those of its ACC, and then the raw byte under ACC's last bit. -/
theorem frameWords_bytesOf_eight_append (v : Acc) (b : Byte) :
    frameWords (bytesOf 8 v ++ [b]) = (List.range 7).map (accWord v) ++ [(v.getLsbD 0, b)] := by
  have hj : joined (bytesOf 8 v ++ [b]) = v.toNat * 256 + b.toNat := by
    rw [joined_append_singleton, joined_bytesOf_eight]
  have hb : b.toNat < 2 ^ 8 := b.isLt
  have hdiv : (v.toNat * 256 + b.toNat) >>> 8 = v.toNat := by
    rw [Nat.shiftRight_eq_div_pow]; omega
  have hhigh : ∀ k, (v.toNat * 256 + b.toNat) >>> (8 + k) = v.toNat >>> k := fun k => by
    rw [Nat.shiftRight_add, hdiv]
  have hbit : ∀ k, (v.toNat * 256 + b.toNat).testBit (8 + k) = v.getLsbD k := fun k => by
    rw [← Nat.testBit_shiftRight, hdiv]; rfl
  simp only [frameWords, hj, List.length_append, length_bytesOf, List.length_singleton]
  rw [show 8 * (8 + 1) / 9 = 7 + 1 from rfl, List.range_succ, List.map_append]
  congr 1
  · refine List.map_congr_left fun i hi => ?_
    have hi : i < 7 := List.mem_range.mp hi
    refine Prod.ext ?_ ?_
    · rw [show 8 * (8 + 1) - 1 - 9 * i = 8 + (63 - 9 * i) by omega, hbit]; rfl
    · rw [show 8 * (8 + 1) - 9 - 9 * i = 8 + (55 - 9 * i) by omega, hhigh]; rfl
  · refine congrArg (· :: []) (Prod.ext (hbit 0) (BitVec.eq_of_toNat_eq ?_))
    simp only [BitVec.toNat_ofNat]
    omega

/-! PACK (R141). -/

/-- A word in its slot i fills that slot, and leaves zeros in the others. -/
theorem word_shiftLeft_slot (x : Word9) {i j : Nat} (hi : i ≤ 6) (hj : j ≤ 6) :
    (x.zeroExtend 64 <<< (55 - 9 * i)).extractLsb' (55 - 9 * j) 9 = if i = j then x else 0 := by
  apply BitVec.eq_of_getLsbD_eq
  intro q hq
  simp only [BitVec.getLsbD_extractLsb', BitVec.getLsbD_shiftLeft, BitVec.truncate_eq_setWidth, BitVec.getLsbD_setWidth]
  obtain hlt | rfl | hgt := Nat.lt_trichotomy i j
  · have hbelow : 55 - 9 * j + q < 55 - 9 * i := by omega
    simp [hbelow, Nat.ne_of_lt hlt]
  · have hat : 55 - 9 * i + q - (55 - 9 * i) = q := by omega
    have hinside : 55 - 9 * i + q < 64 := by omega
    simp [hat, hinside, hq, Nat.lt_trans hq (by decide : 9 < 64)]
  · have habove : 9 ≤ 55 - 9 * j + q - (55 - 9 * i) := by omega
    simp [Nat.ne_of_gt hgt, BitVec.getLsbD_of_ge x _ habove]

/-- Word slot j of bytes that are packed from slot i on: the word of the byte there, else zeros. -/
theorem packFrom_slot (c : Bool) (i : Nat) (g : List Byte) {j : Nat} (hj : j ≤ 6) :
    (packFrom c i g).extractLsb' (55 - 9 * j) 9 =
      if i ≤ j then (g[j - i]?.map (word9 c)).getD 0 else 0 := by
  induction g generalizing i with
  | nil => simp [packFrom]
  | cons b rest ih =>
    simp only [packFrom, BitVec.extractLsb'_or, ih]
    by_cases hi : i ≤ 6
    · rw [if_pos hi, word_shiftLeft_slot _ hi hj]
      obtain hlt | rfl | hgt := Nat.lt_trichotomy i j
      · have hnext : j - i = j - (i + 1) + 1 := by omega
        simp [Nat.ne_of_lt hlt, Nat.le_of_lt hlt, Nat.succ_le_of_lt hlt, hnext]
      · simp
      · have hnot : ¬ i + 1 ≤ j := by omega
        simp [Nat.ne_of_gt hgt, Nat.not_le.mpr hgt, hnot]
    · have hnot : ¬ i ≤ j := by omega
      have hnot' : ¬ i + 1 ≤ j := by omega
      have hctl : ((BitVec.ofBool c).zeroExtend 64).extractLsb' (55 - 9 * j) 9 = 0 := by
        apply BitVec.eq_of_getLsbD_eq
        intro q _
        have habove : 55 - 9 * j ≠ 0 := by omega
        simp [BitVec.getLsbD_setWidth, habove]
      rw [if_neg hi, hctl, if_neg hnot, if_neg hnot']
      rfl

/-- Slot 7 has only a control bit in ACC: C where the bytes reach it. -/
theorem packFrom_getLsbD_zero (c : Bool) (i : Nat) (g : List Byte) :
    (packFrom c i g).getLsbD 0 = (c && decide (7 - i < g.length)) := by
  induction g generalizing i with
  | nil => simp [packFrom]
  | cons b rest ih =>
    simp only [packFrom, BitVec.getLsbD_or, ih, List.length_cons]
    by_cases hi : i ≤ 6
    · have hz : ((word9 c b).zeroExtend 64 <<< (55 - 9 * i)).getLsbD 0 = false := by
        have hbelow : 0 < 55 - 9 * i := by omega
        simp [hbelow]
      have hreach : 7 - (i + 1) < rest.length ↔ 7 - i < rest.length + 1 := by omega
      rw [if_pos hi, hz, Bool.false_or, decide_eq_decide.mpr hreach]
    · have hseven : 7 - i = 0 := by omega
      rw [if_neg hi]
      cases c <;> simp [hseven]

/-- A slot that holds the 9-bit word `{C, B}` reads back as C and B. -/
theorem accWord_of_slot {v : Acc} {i : Nat} {c : Bool} {b : Byte} (hi : i < 7)
    (h : v.extractLsb' (55 - 9 * i) 9 = word9 c b) : accWord v i = (c, b) := by
  have hctl : v.getLsbD (63 - 9 * i) = (word9 c b).getLsbD 8 := by
    rw [← h, BitVec.getLsbD_extractLsb', show 55 - 9 * i + 8 = 63 - 9 * i by omega]
    rfl
  have hbyte : v.extractLsb' (55 - 9 * i) 8 = (word9 c b).setWidth 8 := by
    rw [← h, BitVec.setWidth_extractLsb'_of_le (by decide)]
  rw [accWord, hctl, hbyte]
  refine Prod.ext ?_ ?_
  · cases c <;> exact getLsbD_append_high _ _ _ (Nat.le_refl 8)
  · rw [BitVec.setWidth_eq_extractLsb' (by decide)]
    exact BitVec.extractLsb'_append_eq_right

/-- Word i of a group's ACC: its byte under control bit C, or a filler (R75). -/
theorem accWord_packAcc (c : Bool) (g : List Byte) {i : Nat} (hi : i < 7) :
    accWord (packAcc c g) i = (g[i]?.map fun b => (c, b)).getD (false, 0) := by
  have hslot := packFrom_slot c 0 g (Nat.le_of_lt_succ hi)
  simp only [Nat.zero_le, if_true, Nat.sub_zero] at hslot
  cases hg : g[i]? with
  | none => exact accWord_of_slot hi (hslot.trans (by rw [hg]; rfl))
  | some b => exact accWord_of_slot hi (hslot.trans (by rw [hg]; rfl))

/-- The seven words of a group's ACC: those of its first bytes, then fillers. -/
theorem map_accWord_packAcc (c : Bool) (g : List Byte) :
    (List.range 7).map (accWord (packAcc c g)) =
      ((g.take 7).map fun b => (c, b)) ++ List.replicate (7 - g.length) (false, 0) := by
  refine List.ext_getElem (by simp; omega) fun i hi _ => ?_
  have hi : i < 7 := by simpa using hi
  rw [List.getElem_map, List.getElem_range, accWord_packAcc c g hi]
  obtain hin | hout := Nat.lt_or_ge i g.length
  · simp [hin, hi]
  · simp [hout]

/-! The frames of PACK (R142, R143). -/

theorem pack_partial (c : Bool) {g : List Byte} (hg : g.length < 8) : pack c g = bytesOf 8 (packAcc c g) := by
  rw [pack, if_neg (by omega), List.append_nil]

theorem pack_full (c : Bool) {g : List Byte} (hg : g.length = 8) :
    pack c g = bytesOf 8 (packAcc c g) ++ [g.getD 7 0] := by
  rw [pack, if_pos hg]

theorem length_pack_partial (c : Bool) {g : List Byte} (hg : g.length < 8) : (pack c g).length = 8 := by
  rw [pack_partial c hg, length_bytesOf]

theorem length_pack_full (c : Bool) {g : List Byte} (hg : g.length = 8) : (pack c g).length = 9 := by
  simp [pack_full c hg]

/-- R75: the words of a partial group's frame are its bytes and fillers. -/
theorem frameWords_pack_partial (c : Bool) {g : List Byte} (hg : g.length < 8) :
    frameWords (pack c g) = (g.map fun b => (c, b)) ++ List.replicate (7 - g.length) (false, 0) := by
  rw [pack_partial c hg, frameWords_bytesOf_eight, map_accWord_packAcc, List.take_of_length_le (Nat.le_of_lt_succ hg)]

/-- R75: the words of a full group's frame are its bytes: seven in ACC, the eighth under ACC's last bit. -/
theorem frameWords_pack_full (c : Bool) {g : List Byte} (hg : g.length = 8) :
    frameWords (pack c g) = g.map fun b => (c, b) := by
  have hseven : (List.range 7).map (accWord (packAcc c g)) = (g.take 7).map fun b => (c, b) := by
    rw [map_accWord_packAcc, hg]
    simp
  have hctl : (packAcc c g).getLsbD 0 = c := by
    rw [packAcc, packFrom_getLsbD_zero, hg]
    simp
  have hsplit : g.take 7 ++ [g.getD 7 0] = g := by
    rw [List.getD_eq_getElem (hn := by omega), List.take_concat_get', List.take_of_length_le hg.le]
  rw [pack_full c hg, frameWords_bytesOf_eight_append, hseven, hctl, ← List.map_singleton (f := fun b => (c, b)),
    ← List.map_append, hsplit]

/-- R153: the data words of a group's frame are its bytes, in order: the fillers end them. -/
theorem dataWords_pack {g : List Byte} (hg : g.length ≤ 8) : dataWords (pack true g) = g.map fun b => (true, b) := by
  have hall : ∀ w ∈ g.map (fun b => (true, b)), w.1 = true := by simp
  obtain hpart | hfull := Nat.lt_or_eq_of_le hg
  · rw [dataWords, frameWords_pack_partial true hpart, List.takeWhile_append_of_pos hall]
    simp
  · rw [dataWords, frameWords_pack_full true hfull, List.takeWhile_eq_self_iff.mpr hall]

end Sys2Proof.Machine
end

section
/-! PROOF. The frames of a chunk (R146), put together by the encoder and cut apart by the reference decoder (R153). -/

namespace Sys2Proof.Machine

@[simp] theorem packChunk_nil : packChunk [] = [] := rfl

/-- A chunk that starts with a full group: its 9-byte frame, then the frames of the rest. -/
theorem packChunk_append {g : List Byte} (hg : g.length = 8) (rest : List Byte) :
    packChunk (g ++ rest) = pack true g ++ packChunk rest := by
  match g, hg with
  | [_, _, _, _, _, _, _, _], _ => rfl

/-- A chunk of less than a group: one 8-byte frame. -/
theorem packChunk_partial {g : List Byte} (hne : g ≠ []) (hg : g.length < 8) : packChunk g = pack true g := by
  unfold packChunk
  split
  · simp only [List.length_cons] at hg
    omega
  · contradiction
  · rfl

/-- Induction over the groups of a chunk: full ones from the front, and what is left as a partial one. -/
theorem groups_induction {motive : List Byte → Prop} (nil : motive [])
    (partialGroup : ∀ g, g ≠ [] → g.length < 8 → motive g)
    (fullGroup : ∀ g rest, g.length = 8 → motive rest → motive (g ++ rest)) (bs : List Byte) : motive bs := by
  by_cases hfull : 8 ≤ bs.length
  · rw [← List.take_append_drop 8 bs]
    exact fullGroup _ _ (List.length_take_of_le hfull) (groups_induction nil partialGroup fullGroup (bs.drop 8))
  · by_cases hne : bs = []
    · exact hne ▸ nil
    · exact partialGroup bs hne (Nat.lt_of_not_le hfull)
termination_by bs.length
decreasing_by rw [List.length_drop]; omega

/-- R152 for one transfer: 9 bytes for each full group and 8 for a partial one. -/
theorem length_packChunk (bs : List Byte) :
    (packChunk bs).length = 9 * (bs.length / 8) + if bs.length % 8 ≠ 0 then 8 else 0 := by
  induction bs using groups_induction with
  | nil => rfl
  | partialGroup g hne hg =>
    have hpos : 0 < g.length := List.length_pos_iff.mpr hne
    rw [packChunk_partial hne hg, length_pack_partial true hg, if_pos (by omega)]
    omega
  | fullGroup g rest hg ih =>
    rw [packChunk_append hg, List.length_append, length_pack_full true hg, ih, List.length_append, hg,
      Nat.add_mod_left]
    omega

/-- Full groups only: 9 bytes for 8. -/
theorem length_packChunk_groups {bs : List Byte} (h : bs.length % 8 = 0) :
    (packChunk bs).length = 9 * (bs.length / 8) := by
  rw [length_packChunk, if_neg (by simp [h]), Nat.add_zero]

/-- R153: cutting full groups' frames apart gives back the bytes. -/
theorem framesFuel_packChunk_groups {bs : List Byte} (h : bs.length % 8 = 0) {fuel : Nat}
    (hfuel : (packChunk bs).length ≤ fuel) :
    (framesFuel fuel (packChunk bs)).flatMap dataWords = bs.map fun b => (true, b) := by
  induction bs using groups_induction generalizing fuel with
  | nil => cases fuel <;> rfl
  | partialGroup g hne hg =>
    have hpos : 0 < g.length := List.length_pos_iff.mpr hne
    omega
  | fullGroup g rest hg ih =>
    have hpack : (pack true g).length = 9 := length_pack_full true hg
    have hdata : dataWords (pack true g) = g.map fun b => (true, b) := dataWords_pack hg.le
    have hrest : rest.length % 8 = 0 := by rwa [List.length_append, hg, Nat.add_mod_left] at h
    rw [packChunk_append hg] at hfuel ⊢
    rw [List.length_append, hpack] at hfuel
    obtain ⟨k, rfl⟩ : ∃ k, fuel = k + 1 := ⟨fuel - 1, by omega⟩
    rw [framesFuel]
    split
    · next hlast =>
      have hnil : rest = [] := by
        rw [List.length_append, hpack, length_packChunk_groups hrest] at hlast
        exact List.length_eq_zero_iff.mp (by omega)
      simp [hnil, hdata]
    · rw [List.take_left' hpack, List.drop_left' hpack, List.flatMap_cons, hdata, ih hrest (by omega),
        List.map_append]

/-- R153: the frame of a partial group stands alone in its transfer, and gives back its bytes. -/
theorem framesFuel_pack_partial {g : List Byte} (hg : g.length < 8) :
    (framesFuel (pack true g).length (pack true g)).flatMap dataWords = g.map fun b => (true, b) := by
  have hlen : (pack true g).length = 8 := length_pack_partial true hg
  rw [hlen, framesFuel, if_pos (by omega), List.flatMap_cons, List.flatMap_nil, List.append_nil,
    dataWords_pack hg.le]

end Sys2Proof.Machine
end

section
/-! PROOF. CHUNKSIZE (R145), and the transfers of a byte list chunk by chunk. -/

namespace Sys2Proof.Machine

/-! CHUNKSIZE (R145). -/

theorem chunkSize_of_lt {rem : Nat} (t : Nat) (h : rem < 8) : chunkSize t rem = rem := by
  simp only [chunkSize]
  omega

/-- From 8 bytes on, and with room for a frame, the chunk is `min(CAP, rem)` cut down to whole groups. -/
theorem chunkSize_of_ge {t rem : Nat} (ht : 9 ≤ t) (h : 8 ≤ rem) :
    chunkSize t rem = min (t / 9 * 8) rem / 8 * 8 := by
  simp only [chunkSize]
  omega

/-- Settles O51: the two cases of the chunk size, and the arithmetic of its whole groups. -/
theorem chunkSizeIsWholeGroups : Obligations.ChunkSizeIsWholeGroups := by
  intro t rem ht _
  refine ⟨chunkSize_of_lt t, fun h => ?_⟩
  rw [chunkSize_of_ge ht h]
  refine ⟨by omega, by omega, by omega, by omega, by omega, fun k hk hrem hcap => by omega⟩

/-! The transfers of a byte list, chunk by chunk, under any framing. -/

/-- Fuel for every byte is enough: more of it changes nothing, where every chunk takes a byte. -/
theorem transfersFuel_congr {f : Framing} {t : Nat} (hsize : ∀ r, 1 ≤ r → 1 ≤ f.size t r) {m n : Nat} {bs : List Byte}
    (hm : bs.length ≤ m) (hn : bs.length ≤ n) : transfersFuel f t m bs = transfersFuel f t n bs := by
  induction m generalizing n bs with
  | zero =>
    obtain rfl : bs = [] := List.length_eq_zero_iff.mp (Nat.le_zero.mp hm)
    rw [transfersFuel_nil, transfersFuel_nil]
  | succ m ih =>
    by_cases hne : bs = []
    · rw [hne, transfersFuel_nil, transfersFuel_nil]
    · have hpos : 0 < bs.length := List.length_pos_iff.mpr hne
      have htake : 1 ≤ f.size t bs.length := hsize _ hpos
      obtain ⟨n, rfl⟩ : ∃ k, n = k + 1 := ⟨n - 1, by omega⟩
      have hrest : ∀ {k}, bs.length ≤ k + 1 → (bs.drop (f.size t bs.length)).length ≤ k := fun h => by
        rw [List.length_drop]; omega
      simp only [transfersFuel, ih (hrest hm) (hrest hn)]

/-- The transfers of a non-empty list: its first chunk's words, then the transfers of the rest. -/
theorem transfers_of_ne_nil {f : Framing} {t : Nat} (hsize : ∀ r, 1 ≤ r → 1 ≤ f.size t r) {bs : List Byte}
    (hne : bs ≠ []) :
    transfers f t bs =
      f.words (bs.take (f.size t bs.length)) :: transfers f t (bs.drop (f.size t bs.length)) := by
  have hpos : 0 < bs.length := List.length_pos_iff.mpr hne
  have htake : 1 ≤ f.size t bs.length := hsize _ hpos
  obtain ⟨n, hn⟩ : ∃ n, bs.length = n + 1 := ⟨bs.length - 1, by omega⟩
  have hfuel : (bs.drop (f.size t bs.length)).length ≤ n := by rw [List.length_drop]; omega
  rw [transfers, hn, transfersFuel, ← hn, if_neg (by simpa using hne), transfersFuel_congr hsize hfuel le_rfl]
  rfl

/-! The transfers of the emulated route: chunks of full groups, and what is left as a transfer of its own (R146). -/

theorem one_le_size_e8 {t : Nat} (r : Nat) (hr : 1 ≤ r) : 1 ≤ Framing.e8.size t r := by
  simp only [Framing.size, chunkSize]
  omega

/-- Less than a group is one transfer. -/
theorem transfers_e8_partial (t : Nat) {bs : List Byte} (hne : bs ≠ []) (h : bs.length < 8) :
    transfers .e8 t bs = [.w8 (pack true bs)] := by
  have hall : Framing.e8.size t bs.length = bs.length := chunkSize_of_lt t h
  rw [transfers_of_ne_nil one_le_size_e8 hne, hall, List.take_length, List.drop_length, transfers_nil, Framing.words,
    packChunk_partial hne h]

/-- Induction over the chunks of an emulated data stream: chunks of full groups from the front, each within
`CAP = (T / 9) * 8`, and what is left as a partial group. -/
theorem chunks_induction {t : Nat} (ht : 9 ≤ t) {motive : List Byte → Prop} (nil : motive [])
    (partialGroup : ∀ g, g ≠ [] → g.length < 8 → motive g)
    (chunk : ∀ c rest, c.length % 8 = 0 → c.length ≤ t / 9 * 8 →
      transfers .e8 t (c ++ rest) = .w8 (packChunk c) :: transfers .e8 t rest → motive rest → motive (c ++ rest))
    (bs : List Byte) : motive bs := by
  by_cases hne : bs = []
  · exact hne ▸ nil
  by_cases hlen : bs.length < 8
  · exact partialGroup bs hne hlen
  have hsize : Framing.e8.size t bs.length = min (t / 9 * 8) bs.length / 8 * 8 :=
    chunkSize_of_ge ht (Nat.le_of_not_lt hlen)
  have hchunk : (bs.take (Framing.e8.size t bs.length)).length = min (t / 9 * 8) bs.length / 8 * 8 := by
    rw [List.length_take, hsize]; omega
  rw [← List.take_append_drop (Framing.e8.size t bs.length) bs]
  refine chunk _ _ ?_ ?_ ?_ (chunks_induction ht nil partialGroup chunk (bs.drop (Framing.e8.size t bs.length)))
  · rw [hchunk]; omega
  · rw [hchunk]; omega
  · rw [List.take_append_drop]
    exact transfers_of_ne_nil one_le_size_e8 hne
termination_by bs.length
decreasing_by rw [List.length_drop, hsize]; omega

end Sys2Proof.Machine
end

section
/-! PROOF. The laws of the emulated transfers: R151, R152 and R154. -/

namespace Sys2Proof.Machine

/-- R151: an emulated transfer is 8 bits wide and has at most T bytes. -/
theorem transfers_e8_bounded {t : Nat} (ht : 9 ≤ t) (bs : List Byte) :
    ∀ x ∈ transfers .e8 t bs, x.bpw = 8 ∧ x.length ≤ t := by
  induction bs using chunks_induction ht with
  | nil => simp
  | partialGroup g hne hg =>
    have hpack : (pack true g).length = 8 := length_pack_partial true hg
    rw [transfers_e8_partial t hne hg, List.forall_mem_singleton, Words.length, hpack]
    exact ⟨rfl, by omega⟩
  | chunk c rest hgroups hcap hstep ih =>
    have hfits : (packChunk c).length ≤ t := by
      rw [length_packChunk_groups hgroups]; omega
    rw [hstep, List.forall_mem_cons]
    exact ⟨⟨rfl, hfits⟩, ih⟩

/-- R152: the bytes of all the emulated transfers of a list, as if it were one chunk. -/
theorem sum_length_transfers_e8 {t : Nat} (ht : 9 ≤ t) (bs : List Byte) :
    ((transfers .e8 t bs).map Words.length).sum = 9 * (bs.length / 8) + if bs.length % 8 ≠ 0 then 8 else 0 := by
  induction bs using chunks_induction ht with
  | nil => rfl
  | partialGroup g hne hg =>
    rw [transfers_e8_partial t hne hg, ← length_packChunk, packChunk_partial hne hg]
    simp [Words.length]
  | chunk c rest hgroups _ hstep ih =>
    have hleft : (c.length + rest.length) % 8 = rest.length % 8 := by omega
    rw [hstep, List.map_cons, List.sum_cons, ih, Words.length, length_packChunk_groups hgroups, List.length_append,
      hleft]
    omega

/-- Settles O52: the bound of each transfer, their total by induction over the chunks, and the command frame as it
stands. -/
theorem emulatedTransferLengths : Obligations.EmulatedTransferLengths :=
  ⟨fun _ bs ht => ⟨transfers_e8_bounded ht bs, sum_length_transfers_e8 ht bs⟩, fun _ => rfl⟩

/-- R154 for a data stream: each transfer's frames give back the bytes of its chunk. -/
theorem refDecode_transfers_e8 {t : Nat} (ht : 9 ≤ t) (bs : List Byte) :
    refDecode true ((transfers .e8 t bs).map Words.bytes) = bs.map fun b => (true, b) := by
  induction bs using chunks_induction ht with
  | nil => rfl
  | partialGroup g hne hg =>
    have hframe := framesFuel_pack_partial hg
    simpa [transfers_e8_partial t hne hg, refDecode, Words.bytes] using hframe
  | chunk c rest hgroups _ hstep ih =>
    have hframes := framesFuel_packChunk_groups hgroups le_rfl
    simp only [refDecode, if_true] at ih ⊢
    rw [hstep, List.map_cons, List.flatMap_cons, ih, List.map_append]
    exact congrArg (· ++ _) hframes

/-- Settles O53: the decoder undoes the packing of every chunk, by induction over the chunks; the command frame carries
its byte last. -/
theorem referenceDecodeRecoversStreams : Obligations.ReferenceDecodeRecoversStreams :=
  ⟨fun _ bs ht => refDecode_transfers_e8 ht bs, fun _ => rfl⟩

end Sys2Proof.Machine
end

section
/-! PROOF. The checks of the Option 3 route (43_option3_command.md R183, R184): the write call ends in CHECK, as on the
other two routes. -/

namespace Sys2Proof.Machine

/-- ROUTE is O3 on Option 3, whatever the transport can do (R25). -/
theorem State.sample_route_o3 {s : State} (hv : s.variant = .option3) : s.sample.call.route = .o3 := by
  rw [State.sample_option3 hv]

/-- The width test of R182 on what a call sampled, in terms of the command and the transport alone. -/
theorem wideData_sample_iff {s : State} (hv : s.variant = .option3) (cmd : Byte) :
    wideData s.sample.params s.sample.call cmd = true ↔ cmd = s.params.memWriteCmd ∧ s.supports16 = true := by
  rw [State.sample_option3 hv]
  exact wideData_sampled _ _ _ rfl

/-- The checks of the Option 3 route, in order: T must hold a word of each phase (R184), then a 16-bit data phase must
have whole words (R183). -/
theorem writeCheck_sample_o3 {s : State} (hv : s.variant = .option3) (cmd : Byte) (n : Nat) :
    writeCheck cmd n s.sample =
      if s.maxXfer < 1 ∨ ((cmd = s.params.memWriteCmd ∧ s.supports16 = true) ∧ 0 < n ∧ s.maxXfer < 2) then
        .err .invalidArgument s.sample
      else if (cmd = s.params.memWriteCmd ∧ s.supports16 = true) ∧ n % 2 = 1 then .refuse .oddLength16 s.sample
      else .go s.sample := by
  simp only [writeCheck, State.sample_route_o3 hv, State.sample_t, wideData_sample_iff hv]

/-- Settles O28: the first check of the Option 3 route finds T too small for a byte, or for a word of the data phase. -/
theorem optionThreeUndersizedIsInvalid : Obligations.OptionThreeUndersizedIsInvalid := by
  intro cmd s hp hc hf hv hsmall
  exact sendCommand_err_of_writeCheck hp hc hf
    ((writeCheck_sample_o3 (s := s.enter .check) hv cmd _).trans (if_pos hsmall))

/-- A write call that a check of its route refuses ends so, before any scratch is asked for. -/
theorem writeCall_of_writeCheck_refuse {cmd : Byte} {s : State} {r : Reason}
    (hf : s.fits s.argAddr s.argLen = true) (hr : writeCheck cmd s.argLen s.sample = .refuse r s.sample) :
    writeCall cmd s = .refuse r s.sample := by
  rw [writeCall, if_pos hf, hr, Flow.andThen_refuse]

/-- A SEND_COMMAND that is a write and that a check of its route refuses ends so in CHECK, and changes nothing else. -/
theorem sendCommand_refused_of_writeCheck {cmd : Byte} {s : State} {r : Reason} (hp : s.phase = .ready)
    (hc : s.classify cmd = false) (hf : s.fits s.argAddr s.argLen = true)
    (hr : writeCheck cmd s.argLen (s.enter .check).sample = .refuse r (s.enter .check).sample) :
    ∃ t, exec (.sendCommand cmd) s = .next t ∧ writeEnded s t [] (.refused r) ∧ endedInCheck s t := by
  refine ⟨(s.enter .check).sample.finish (.refused r), ?_, writeEnded_enter_sample_finish _ _ _,
    endedInCheck_enter_sample_finish _ _⟩
  rw [exec_sendCommand_write hp hc, writeCall_of_writeCheck_refuse (s := s.enter .check) hf hr]
  rfl

/-- Settles O29: T passes the first check of the Option 3 route, and the second finds half a word left over. -/
theorem oddWideLengthIsRefused : Obligations.OddWideLengthIsRefused := by
  intro cmd s hp hc hf hv ht hwide hodd
  have hlarge : ¬ (s.maxXfer < 1 ∨ (s.wide cmd ∧ 0 < s.argLen ∧ s.maxXfer < 2)) := by omega
  exact sendCommand_refused_of_writeCheck hp hc hf
    ((writeCheck_sample_o3 (s := s.enter .check) hv cmd _).trans ((if_neg hlarge).trans (if_pos ⟨hwide, hodd⟩)))

end Sys2Proof.Machine
end

section
/-! PROOF. The chunks of a byte list under any framing, and the Option 3 transfers (43_option3_command.md R185). -/

namespace Sys2Proof.Machine

/-! Chunks. `k` is the number of bytes of one word: a framing that takes whole words of what is left, at least one and at
most `m` bytes, cuts whole words into chunks of whole words. -/

/-- The transfers of a byte list are the words of chunks that are its bytes in order. -/
theorem transfersFuel_eq_map_chunks {f : Framing} {t k m : Nat}
    (hsize : ∀ r, 1 ≤ r → k ∣ r → 1 ≤ f.size t r ∧ f.size t r ≤ m ∧ k ∣ f.size t r) {fuel : Nat} {bs : List Byte}
    (hfuel : bs.length ≤ fuel) (hk : k ∣ bs.length) :
    ∃ chunks : List (List Byte), transfersFuel f t fuel bs = chunks.map f.words ∧ chunks.flatten = bs ∧
      ∀ c ∈ chunks, 1 ≤ c.length ∧ c.length ≤ m ∧ k ∣ c.length := by
  induction fuel generalizing bs with
  | zero => exact ⟨[], rfl, (List.length_eq_zero_iff.mp (Nat.le_zero.mp hfuel)).symm, by simp⟩
  | succ fuel ih =>
    by_cases hne : bs = []
    · exact ⟨[], by simp [hne, transfersFuel], hne.symm, by simp⟩
    have hchunk := hsize bs.length (List.length_pos_iff.mpr hne) hk
    have hlen : (bs.take (f.size t bs.length)).length = f.size t bs.length :=
      List.length_take_of_le (f.size_le t bs.length)
    have hrest : (bs.drop (f.size t bs.length)).length = bs.length - f.size t bs.length := List.length_drop
    obtain ⟨chunks, hwords, hflat, hall⟩ := ih (bs := bs.drop (f.size t bs.length)) (by omega)
      (hrest ▸ Nat.dvd_sub hk hchunk.2.2)
    refine ⟨bs.take (f.size t bs.length) :: chunks, ?_, ?_, ?_⟩
    · rw [transfersFuel, if_neg (by simpa using hne), hwords, List.map_cons]
    · rw [List.flatten_cons, hflat, List.take_append_drop]
    · rw [List.forall_mem_cons, hlen]
      exact ⟨hchunk, hall⟩

theorem transfers_eq_map_chunks {f : Framing} {t k m : Nat}
    (hsize : ∀ r, 1 ≤ r → k ∣ r → 1 ≤ f.size t r ∧ f.size t r ≤ m ∧ k ∣ f.size t r) {bs : List Byte}
    (hk : k ∣ bs.length) :
    ∃ chunks : List (List Byte), transfers f t bs = chunks.map f.words ∧ chunks.flatten = bs ∧
      ∀ c ∈ chunks, 1 ≤ c.length ∧ c.length ≤ m ∧ k ∣ c.length :=
  transfersFuel_eq_map_chunks hsize le_rfl hk

/-- An 8-bit chunk takes from 1 to T bytes (R185). -/
theorem size_o3x8_bounds {t r : Nat} (ht : 1 ≤ t) (hr : 1 ≤ r) :
    1 ≤ Framing.o3x8.size t r ∧ Framing.o3x8.size t r ≤ t ∧ 1 ∣ Framing.o3x8.size t r := by
  simp only [Framing.size]
  omega

/-- A 16-bit chunk of whole words takes from 1 to T / 2 of them (R185). -/
theorem size_o3x16_bounds (e : Endian) {t r : Nat} (ht : 2 ≤ t) (hr : 1 ≤ r) (heven : 2 ∣ r) :
    1 ≤ (Framing.o3x16 e).size t r ∧ (Framing.o3x16 e).size t r ≤ 2 * (t / 2) ∧ 2 ∣ (Framing.o3x16 e).size t r := by
  simp only [Framing.size]
  omega

/-! 16-bit words (R56): one for every two bytes, so whole words split like their bytes. -/

theorem length_words16 (e : Endian) : ∀ bs : List Byte, (words16 e bs).length = bs.length / 2
  | [] => rfl
  | [_] => by simp [words16]
  | _ :: _ :: rest => by
    rw [words16, List.length_cons, length_words16 e rest, List.length_cons, List.length_cons]
    omega

theorem words16_append (e : Endian) (cs : List Byte) :
    ∀ bs : List Byte, 2 ∣ bs.length → words16 e (bs ++ cs) = words16 e bs ++ words16 e cs
  | [], _ => rfl
  | [_], h => by simp at h
  | _ :: _ :: rest, h => by
    have hrest : 2 ∣ rest.length := (Nat.dvd_add_left (Nat.dvd_refl 2)).mp h
    simp only [List.cons_append, words16, words16_append e cs rest hrest]

theorem flatten_map_words16 (e : Endian) {chunks : List (List Byte)} (heven : ∀ c ∈ chunks, 2 ∣ c.length) :
    (chunks.map (words16 e)).flatten = words16 e chunks.flatten := by
  induction chunks with
  | nil => rfl
  | cons c chunks ih =>
    obtain ⟨hc, hchunks⟩ := List.forall_mem_cons.mp heven
    rw [List.map_cons, List.flatten_cons, List.flatten_cons, words16_append e _ c hc, ih hchunks]

/-- R185 at 8 bits: the transfers are the chunks themselves. -/
theorem transfers_o3x8_carry_bytes {t : Nat} (ht : 1 ≤ t) (bs : List Byte) :
    ∃ bss : List (List Byte), transfers .o3x8 t bs = bss.map .w8 ∧ bss.flatten = bs ∧
      ∀ x ∈ bss, 1 ≤ x.length ∧ x.length ≤ t := by
  obtain ⟨chunks, hwords, hflat, hall⟩ :=
    transfers_eq_map_chunks (k := 1) (bs := bs) (fun _ hr _ => size_o3x8_bounds ht hr) (Nat.one_dvd _)
  refine ⟨chunks, hwords, hflat, fun x hx => ?_⟩
  obtain ⟨hpos, hle, -⟩ := hall x hx
  exact ⟨hpos, hle⟩

/-- R185 at 16 bits: the transfers are the words of chunks of whole words. -/
theorem transfers_o3x16_carry_words (e : Endian) {t : Nat} (ht : 2 ≤ t) {bs : List Byte} (heven : 2 ∣ bs.length) :
    ∃ wss : List (List Word16), transfers (.o3x16 e) t bs = wss.map .w16 ∧ wss.flatten = words16 e bs ∧
      ∀ ws ∈ wss, 1 ≤ ws.length ∧ ws.length ≤ t / 2 := by
  obtain ⟨chunks, hwords, hflat, hall⟩ :=
    transfers_eq_map_chunks (fun _ hr hdvd => size_o3x16_bounds e ht hr hdvd) heven
  refine ⟨chunks.map (words16 e), ?_, ?_, ?_⟩
  · rw [hwords, List.map_map]
    rfl
  · rw [flatten_map_words16 e fun c hc => (hall c hc).2.2, hflat]
  · rw [List.forall_mem_map]
    intro c hc
    obtain ⟨hpos, hle, hdvd⟩ := hall c hc
    rw [length_words16]
    omega

/-- Settles O50: each width's transfers are the words of chunks that are the list's bytes in order. -/
theorem optionThreeTransfersCarryTheData : Obligations.OptionThreeTransfersCarryTheData :=
  fun e _ bs => ⟨fun ht => transfers_o3x8_carry_bytes ht bs,
    fun ht heven => transfers_o3x16_carry_words e ht (Nat.dvd_of_mod_eq_zero heven)⟩

end Sys2Proof.Machine
end

section
/-! PROOF. A write call that its checks let through and whose scratch is allocated goes to its encoder (45_dispatcher.md
R233), and what the Option 3 encoder does with no parameters (43_option3_command.md R187). -/

namespace Sys2Proof.Machine

/-- The state in which the encoder takes a write call over: sampled, checked, and with its scratch allocated. -/
def State.encoderEntry (s : State) : State :=
  { (s.enter .check).sample with
    seq := .alloc
    trail := (s.enter .check).sample.trail ++ [.alloc]
    call := { (s.enter .check).sample.call with allocated := true }
    io := { (s.enter .check).sample.io with alloc := (s.enter .check).sample.io.alloc.tick } }

/-- Sampling asks neither the allocator nor for a transfer (R26, R232). -/
@[simp] theorem State.sample_allocAnswer (s : State) : s.sample.allocAnswer = s.allocAnswer := by
  cases h : s.variant with
  | option1 => rw [State.sample_option1 h]; rfl
  | option3 => rw [State.sample_option3 h]; rfl

/-- A write call that its checks let through, its scratch allocated, is its encoder's work (R233). -/
theorem writeCall_of_writeCheck_go {cmd : Byte} {s u : State} (hf : s.fits s.argAddr s.argLen = true)
    (hgo : writeCheck cmd s.argLen s.sample = .go s.sample) (ha : s.sample.allocate = .go u) :
    writeCall cmd s = encodeWrite cmd u := by
  rw [writeCall, if_pos hf, hgo, Flow.andThen_go, ha, Flow.andThen_go]

/-- The same for a SEND_COMMAND that is a write. -/
theorem exec_sendCommand_of_writeCheck_go {cmd : Byte} {s : State} (hp : s.phase = .ready)
    (hc : s.classify cmd = false) (hf : s.fits s.argAddr s.argLen = true)
    (hgo : writeCheck cmd s.argLen (s.enter .check).sample = .go (s.enter .check).sample)
    (ha : s.allocAnswer = true) :
    exec (.sendCommand cmd) s = (encodeWrite cmd s.encoderEntry).close := by
  have halloc : (s.enter .check).sample.allocate = .go s.encoderEntry :=
    State.allocate_ok ((State.sample_allocAnswer _).trans ha)
  rw [exec_sendCommand_write hp hc, writeCall_of_writeCheck_go (s := s.enter .check) hf hgo halloc]

/-! What the encoder takes over: the ROUTE sampled, and the operands, the bus and the transport's answers as the call found
them. -/

theorem State.encoderEntry_route_o3 {s : State} (hv : s.variant = .option3) : s.encoderEntry.call.route = .o3 :=
  State.sample_route_o3 (s := s.enter .check) hv

@[simp] theorem State.encoderEntry_argLen (s : State) : s.encoderEntry.argLen = s.argLen := by
  obtain ⟨io, c, h⟩ := (s.enter .check).sample_eq_setIo_setCall
  simp [State.encoderEntry, State.argLen, h]

@[simp] theorem State.encoderEntry_events (s : State) : s.encoderEntry.events = s.events := by
  obtain ⟨io, c, h⟩ := (s.enter .check).sample_eq_setIo_setCall
  simp [State.encoderEntry, h]

@[simp] theorem State.encoderEntry_xferAnswer (s : State) (j : Nat) :
    s.encoderEntry.xferAnswer j = s.xferAnswer j := by
  cases h : s.variant with
  | option1 => rw [State.encoderEntry, State.sample_option1 (s := s.enter .check) h]; rfl
  | option3 => rw [State.encoderEntry, State.sample_option3 (s := s.enter .check) h]; rfl

/-! No parameters on Option 3. -/

/-- A buffer of length 0 lies in the address space wherever it starts (R52). -/
theorem State.fits_of_len_zero (s : State) (addr : Nat) {n : Nat} (hn : n = 0) : s.fits addr n = true := by
  simp [State.fits, hn]

/-- With no parameters the Option 3 checks ask of T one byte only (R183, R184). -/
theorem writeCheck_sample_o3_of_len_zero {s : State} (hv : s.variant = .option3) (cmd : Byte) {n : Nat} (hn : n = 0)
    (ht : 1 ≤ s.maxXfer) : writeCheck cmd n s.sample = .go s.sample := by
  rw [writeCheck_sample_o3 hv, if_neg (by omega), if_neg (by omega)]

/-- The plan of an Option 3 write with no parameters, its one transfer answered ok (R187). -/
theorem encodeWrite_o3_no_parameters {cmd : Byte} {s : State} {raw : List Byte} (hr : s.call.route = .o3)
    (hn : s.argLen = 0) (hx : s.xferAnswer 0 = .ok raw) :
    ∃ t, encodeWrite cmd s = .go t ∧ Played s [.sel .cmd, okWrite (.w8 [cmd])] t := by
  have hplays := encodeWrite_o3_plays cmd s hr
  have hplay : play s.xferAnswer 0 [.sel .cmd, .write (.w8 [cmd])] = ([.sel .cmd, okWrite (.w8 [cmd])], .done) := by
    simp [play, hx, okWrite]
  rw [if_pos hn, Flow.Plays, hplay] at hplays
  exact hplays

/-- Settles O59: the call passes its checks, and its encoder plays the select of CMD and the command byte. -/
theorem noParametersMeansNoDataPhase : Obligations.NoParametersMeansNoDataPhase := by
  intro cmd s raw hp hc hv hn ht ha hx
  have hf : s.fits s.argAddr s.argLen = true := s.fits_of_len_zero _ hn
  have hgo : writeCheck cmd s.argLen (s.enter .check).sample = .go (s.enter .check).sample :=
    writeCheck_sample_o3_of_len_zero (s := s.enter .check) hv cmd hn ht
  obtain ⟨t, hflow, hplayed⟩ := encodeWrite_o3_no_parameters (cmd := cmd) (State.encoderEntry_route_o3 hv)
    (s.encoderEntry_argLen.trans hn) ((s.encoderEntry_xferAnswer 0).trans hx)
  refine ⟨t.finish (.ok none), ?_, ?_, ?_, rfl⟩
  · rw [exec_sendCommand_of_writeCheck_go hp hc hf hgo ha, hflow]
    rfl
  · rw [State.finish_events, hplayed.events, State.encoderEntry_events]
  · rw [State.finish_sel, hplayed.sel]
    rfl

end Sys2Proof.Machine
end

section
/-! PROOF. The checks of a read call that come after the phase and the address (44_option3_read.md R200 to R202, R209;
45_dispatcher.md R236, R237): the call ends in CHECK, with no byte outside its destination changed. -/

namespace Sys2Proof.Machine

/-! The read set and the dummy-clock commands. -/

/-- A command of the read set is one only where a set is configured (R24, R201). -/
theorem State.readsetValid_of_classify {s : State} {cmd : Byte} (hc : s.classify cmd = true) : s.readsetValid = true :=
  (Bool.and_eq_true_iff.mp hc).1

/-- With no read set configured no command is a read. -/
theorem State.classify_of_not_readsetValid {s : State} (h : s.readsetValid = false) (cmd : Byte) :
    s.classify cmd = false := by
  simp [State.classify, h]

theorem isDcCmd_eq_true_iff (p : Params) (cmd : Byte) :
    isDcCmd p cmd = true ↔ cmd = p.dcCmds.first ∨ cmd = p.dcCmds.second := by
  simp [isDcCmd]

/-! READ_COMMAND's flow in READY, its destination in the address space. -/

/-- A command that is no read, or any on Option 1, stops before O3.READ (R236, R237). -/
theorem readFlow_unsupported {cmd : Byte} {s : State} (hp : s.phase = .ready)
    (hun : s.classify cmd = false ∨ s.variant = .option1) (dst n : Nat) :
    readFlow cmd dst n true s = .err .unsupported s := by
  rcases hun with hc | hv
  · simp [readFlow, hp, hc]
  · simp [readFlow, hp, hv]

/-- A command of the read set on Option 3 is O3.READ's work (R236). -/
theorem readFlow_option3 {cmd : Byte} {s : State} (hp : s.phase = .ready) (hc : s.classify cmd = true)
    (hv : s.variant = .option3) (dst n : Nat) : readFlow cmd dst n true s = o3ReadRaw cmd dst n s := by
  simp [readFlow, hp, hc, hv]

/-! The length checks of O3.READ, for a command of the read set. -/

/-- A dummy-clock read has length 3 or 4 (R202). -/
theorem o3ReadCheck_dummyClock {cmd : Byte} {s : State} (hc : s.classify cmd = true)
    (hdc : isDcCmd s.params cmd = true) (n : Nat) :
    o3ReadCheck cmd n s = if n = 3 ∨ n = 4 then .go s else .err .invalidArgument s := by
  simp [o3ReadCheck, State.readsetValid_of_classify hc, hdc]

/-- A normal read has any length but 0 (R209). -/
theorem o3ReadCheck_normal {cmd : Byte} {s : State} (hc : s.classify cmd = true)
    (hdc : isDcCmd s.params cmd = false) (n : Nat) :
    o3ReadCheck cmd n s = if n = 0 then .refuse .zeroRead s else .go s := by
  simp [o3ReadCheck, State.readsetValid_of_classify hc, hdc]

/-- An error of O3.READ's checks is where the read ends, before any scratch is asked for. -/
theorem o3ReadRaw_of_o3ReadCheck_err {cmd : Byte} {n : Nat} {s : State} {k : ErrKind}
    (h : o3ReadCheck cmd n s = .err k s) (dst : Nat) : o3ReadRaw cmd dst n s = .err k s := by
  rw [o3ReadRaw, h, Flow.andThen_err]

/-- The same for a refusal. -/
theorem o3ReadRaw_of_o3ReadCheck_refuse {cmd : Byte} {n : Nat} {s : State} {r : Reason}
    (h : o3ReadCheck cmd n s = .refuse r s) (dst : Nat) : o3ReadRaw cmd dst n s = .refuse r s := by
  rw [o3ReadRaw, h, Flow.andThen_refuse]

/-! A read call that ends where it stands. -/

/-- A read call whose flow raises an error at once ends with it. -/
theorem readCall_of_readFlow_err {cmd : Byte} {s : State} {k : ErrKind} (hf : s.fits s.argAddr s.argLen = true)
    (h : readFlow cmd s.argAddr s.argLen true s = .err k s) :
    readCall cmd s = .next ((s.havoc s.argAddr s.argLen).finish (.err k)) := by
  rw [readCall, hf, h]
  rfl

/-- A read call whose flow is refused at once ends so. -/
theorem readCall_of_readFlow_refuse {cmd : Byte} {s : State} {r : Reason} (hf : s.fits s.argAddr s.argLen = true)
    (h : readFlow cmd s.argAddr s.argLen true s = .refuse r s) :
    readCall cmd s = .next ((s.havoc s.argAddr s.argLen).finish (.refused r)) := by
  rw [readCall, hf, h]
  rfl

/-- A READ_COMMAND whose call ends in the state it entered has ended in CHECK, and has changed nothing but its outcome
and its destination. -/
theorem readCommand_ended_in_check {cmd : Byte} {s : State} {r : CallResult} (hwf : s.mem.wf = true)
    (h : readCall cmd (s.enter .check) = .next (((s.enter .check).havoc s.argAddr s.argLen).finish r)) :
    ∃ t, exec (.readCommand cmd) s = .next t ∧ readEnded s.argAddr s.argLen s t [] r ∧ endedInCheck s t :=
  ⟨_, (exec_readCommand cmd s).trans h, readEnded_enter_havoc_finish hwf _ _ _ _,
    endedInCheck_enter_havoc_finish _ _ _ _⟩

/-- Settles O35: with no read set no command is in it, so the three causes are two, and either stops the call before
O3.READ. -/
theorem unsupportedReads : Obligations.UnsupportedReads := by
  intro cmd s hp hwf hf hcause
  have hun : s.classify cmd = false ∨ s.variant = .option1 := by
    rcases hcause with hset | hc | hv
    · exact .inl (State.classify_of_not_readsetValid hset cmd)
    · exact .inl hc
    · exact .inr hv
  exact readCommand_ended_in_check hwf
    (readCall_of_readFlow_err (s := s.enter .check) hf (readFlow_unsupported (s := s.enter .check) hp hun _ _))

/-- Settles O36: the call reaches O3.READ, whose length check for a dummy-clock command fails. -/
theorem dummyClockLengthIsChecked : Obligations.DummyClockLengthIsChecked := by
  intro cmd s hp hwf hf hc hv hdc h3 h4
  have hlen : ¬ (s.argLen = 3 ∨ s.argLen = 4) := not_or.mpr ⟨h3, h4⟩
  have hcheck : o3ReadCheck cmd s.argLen (s.enter .check) = .err .invalidArgument (s.enter .check) :=
    (o3ReadCheck_dummyClock (s := s.enter .check) hc ((isDcCmd_eq_true_iff _ _).mpr hdc) _).trans (if_neg hlen)
  exact readCommand_ended_in_check hwf (readCall_of_readFlow_err (s := s.enter .check) hf
    ((readFlow_option3 (s := s.enter .check) hp hc hv _ _).trans (o3ReadRaw_of_o3ReadCheck_err hcheck _)))

/-- Settles O37: a destination of length 0 lies in the address space and has no byte to lose, and O3.READ refuses the
length. -/
theorem zeroLengthReadIsRefused : Obligations.ZeroLengthReadIsRefused := by
  intro cmd s hp hwf hc hv hfirst hsecond hn
  have hf : s.fits s.argAddr s.argLen = true := s.fits_of_len_zero _ hn
  have hdc : isDcCmd s.params cmd = false :=
    Bool.eq_false_iff.mpr fun h => ((isDcCmd_eq_true_iff _ _).mp h).elim hfirst hsecond
  have hcheck : o3ReadCheck cmd s.argLen (s.enter .check) = .refuse .zeroRead (s.enter .check) :=
    (o3ReadCheck_normal (s := s.enter .check) hc hdc _).trans (if_pos hn)
  have hended := readCommand_ended_in_check hwf (readCall_of_readFlow_refuse (s := s.enter .check) hf
    ((readFlow_option3 (s := s.enter .check) hp hc hv _ _).trans (o3ReadRaw_of_o3ReadCheck_refuse hcheck _)))
  rwa [hn] at hended

end Sys2Proof.Machine
end

section
/-! PROOF. What every operation but CONFIGURE keeps (10_state.md R20): a property of states that the named updates of a
call keep is kept by the whole operation. With it, the phase gate of 45_dispatcher.md R231. -/

namespace Sys2Proof.Machine

/-- A property of states that each named update of a call keeps, CONFIGURE's own write apart. -/
structure KeptByUpdates (P : State → Prop) : Prop where
  enter : ∀ s q, P s → P (s.enter q)
  finish : ∀ s r, P s → P (s.finish r)
  setSeq : ∀ s q, P s → P (s.setSeq q)
  setCall : ∀ s c, P s → P (s.setCall c)
  setIo : ∀ s io, P s → P (s.setIo io)
  setMem : ∀ s m, P s → P (s.setMem m)
  select : ∀ s l, P s → P (s.select l)
  noteXfer : ∀ s sp p r, P s → P (s.noteXfer sp p r)
  report : ∀ (s : State) (r : CallResult), P s → P { s with result := some r }

/-- No named update of a call touches the parameters, PHASE, VARIANT or READSET. -/
theorem keptByUpdates_sameConfig (s : State) : KeptByUpdates (sameConfig s) where
  enter := fun _ _ h => h
  finish := fun _ _ h => h
  setSeq := fun _ _ h => h
  setCall := fun _ _ h => h
  setIo := fun _ _ h => h
  setMem := fun _ _ h => h
  select := fun _ _ h => h
  noteXfer := fun _ _ _ _ h => h
  report := fun _ _ h => h

/-- A flow whose last piece of work only updates the state. -/
theorem Flow.All.andThen_go {P : State → Prop} {f : Flow} (hf : f.All P) {g : State → State}
    (hg : ∀ u, P u → P (g u)) : (f.andThen fun u => .go (g u)).All P :=
  hf.andThen (k := fun u => .go (g u)) hg fun _ hu => hu

namespace KeptByUpdates

variable {P : State → Prop} (hP : KeptByUpdates P) {s t : State}
include hP

/-! Ends of calls. -/

/-- The bytes a failed read leaves (R57) are a memory write, and the count of them an answer used. -/
theorem havoc (dst n : Nat) (hs : P s) : P (s.havoc dst n) :=
  hP.setIo _ (s.havoc dst n).io (hP.setMem s (s.havoc dst n).mem hs)

theorem close {f : Flow} (hf : f.All P) (h : f.close = .next t) : P t := by
  rcases Flow.close_next h with ⟨u, rfl, rfl⟩ | ⟨k, u, rfl, rfl⟩ | ⟨r, u, rfl, rfl⟩
  · exact hP.finish u _ hf
  · exact hP.finish u _ hf
  · exact hP.finish u _ hf

theorem endRead {f : Flow} {dst n : Nat} (hf : f.All P) (h : f.endRead dst n = .next t) : P t := by
  rcases Flow.endRead_next h with ⟨u, rfl, rfl⟩ | ⟨k, u, rfl, rfl⟩ | ⟨r, u, rfl, rfl⟩
  · exact hP.finish u _ hf
  · exact hP.finish _ _ (hP.havoc dst n hf)
  · exact hP.finish _ _ (hP.havoc dst n hf)

/-! Leaf operations. -/

/-- One write transfer by itself, as N9, O3 and E8 command rows make it. -/
theorem sendClose (hs : P s) {sp : Speed} {k : Nat} {ws : Words} (h : (s.send sp k ws).close = .next t) : P t :=
  hP.close (State.send_all hP.noteXfer hP.setCall hs sp k ws) h

/-- One data group by itself (R142, R143): PACK writes ACC before its transfer. -/
theorem e8GroupClose (hs : P s) {g : List Byte} (h : (e8Group g s).close = .next t) : P t :=
  hP.sendClose (hP.setCall s _ hs) h

theorem decodeInto (hs : P s) {n : Nat} {raw : List Byte} {dc : Bool} (h : decodeInto n raw dc s = .next t) : P t := by
  have hraw : P ((s.enter .decode).keepRaw raw) := hP.setCall _ _ (hP.enter s .decode hs)
  refine hP.endRead ?_ h
  split
  · exact hP.setMem _ _ hraw
  · exact hraw

/-! Host calls. -/

theorem readFlow (hs : P s) (cmd : Byte) (dst n : Nat) (inSpace : Bool) : (readFlow cmd dst n inSpace s).All P :=
  readFlow_all hP.noteXfer hP.setCall hP.setSeq hP.select hP.setIo cmd dst n inSpace hs

theorem readCall (hs : P s) {cmd : Byte} (h : readCall cmd s = .next t) : P t :=
  hP.endRead ((hP.readFlow hs cmd _ _ _).andThen_go fun u hu => hP.setMem u _ hu) h

theorem execSendCommand (hs : P s) {cmd : Byte} (h : execSendCommand cmd s = .next t) : P t := by
  have hcheck : P (s.enter .check) := hP.enter s .check hs
  unfold Machine.execSendCommand at h
  split at h
  · cases h
    exact hP.finish _ _ hcheck
  · split at h
    · exact hP.readCall hcheck h
    · exact hP.close (writeCall_all hP.noteXfer hP.setCall hP.setSeq hP.select hP.setIo cmd hcheck) h

theorem execIsDisplayOn (hs : P s) (h : execIsDisplayOn s = .next t) : P t := by
  have hflow := (hP.readFlow (hP.enter s .check hs) s.params.powerModeCmd 0 1 true).andThen_go
    (g := fun u => u.keepPm (u.readOut s.params.powerModeCmd 1)) fun u hu => hP.setCall u _ hu
  unfold Machine.execIsDisplayOn at h
  split at h
  next u hgo => rw [hgo] at hflow; cases h; exact hP.finish u _ hflow
  next k u herr => rw [herr] at hflow; cases h; exact hP.finish u _ hflow
  next r u href => rw [href] at hflow; cases h; exact hP.finish u _ hflow
  next => cases h

/-- Every operation but CONFIGURE keeps what the updates keep. -/
theorem exec {i : Instr} (hi : i ≠ .configure) (hs : P s) (h : exec i s = .next t) : P t := by
  have hcmd : P (s.enter .cmdPhase) := hP.enter s _ hs
  have hdata : P (s.enter .dataPhase) := hP.enter s _ hs
  cases i with
  | configure => exact absurd rfl hi
  | sendCommand cmd => exact hP.execSendCommand hs h
  | readCommand cmd => exact hP.readCall (hP.enter s .check hs) h
  | isDisplayOn => exact hP.execIsDisplayOn hs h
  | reservedOp op c => cases h; exact hP.finish _ _ (hP.enter s .check hs)
  | classify cmd => cases h; exact hP.report s _ hs
  | n9Cmd | e8Cmd => exact hP.sendClose hcmd h
  | n9Data => exact hP.sendClose hdata h
  | e8Full | e8Part1 | e8Part2 | e8Part3 | e8Part4 | e8Part5 | e8Part6 | e8Part7 => exact hP.e8GroupClose hdata h
  | o3Cmd => exact hP.sendClose (hP.select _ .cmd hcmd) h
  | o3Data8 | o3Data16 => exact hP.sendClose (hP.select _ .data hdata) h
  | o3Rd8 | o3Rddc3 | o3Rddc4 => exact hP.decodeInto hs h

end KeptByUpdates

/-- No operation but CONFIGURE changes the configuration, whatever its outcome (R20 to R23). -/
theorem exec_sameConfig {i : Instr} {s t : State} (hi : i ≠ .configure) (h : exec i s = .next t) : sameConfig s t :=
  (keptByUpdates_sameConfig s).exec hi ⟨rfl, rfl, rfl, rfl, rfl⟩ h

end Sys2Proof.Machine
end

section
/-! PROOF. CONFIGURE (45_dispatcher.md R230) and the phase gate (R231). -/

namespace Sys2Proof.Machine

/-! CONFIGURE. -/

/-- CONFIGURE refuses a present read set of more than 255 members or with the sentinel among them (R23, R230). -/
theorem badReadSet_eq_true_iff (p : Params) (rs : Option ByteSet) :
    badReadSet p rs = true ↔
      ∃ m, rs = some m ∧ (255 < setCard m ∨ m.getLsbD p.readsetSentinel.toNat = true) := by
  cases rs with
  | none => simp [badReadSet]
  | some m => simp [badReadSet, setHas, show Config.readsetMax = 255 from rfl]

/-- The map CONFIGURE writes for a read set has exactly its members; for an absent one it has none. -/
theorem readset_getD_getLsbD_iff (rs : Option ByteSet) (v : Nat) :
    (rs.getD 0).getLsbD v = true ↔ ∃ m, rs = some m ∧ m.getLsbD v = true := by
  cases rs with
  | none => simp
  | some m => simp

theorem exec_configure_of_configured {s : State} (hp : s.phase ≠ .unconfigured) :
    exec .configure s = .next ((s.enter .check).finish (.refused .reconfigure)) := by
  simp [exec, execConfigure, hp, Flow.close]

theorem exec_configure_of_badReadSet {s : State} (hp : s.phase = .unconfigured)
    (hb : badReadSet s.params s.args.readset = true) :
    exec .configure s = .next ((s.enter .check).finish (.refused .badReadSet)) := by
  simp [exec, execConfigure, hp, hb, Flow.close]

theorem exec_configure_ok {s : State} (hp : s.phase = .unconfigured)
    (hb : badReadSet s.params s.args.readset = false) :
    exec .configure s = .next (((s.enter .check).configureWith s.args).finish (.ok none)) := by
  simp [exec, execConfigure, hp, hb, Flow.close]

/-- A call that ends in its first state has changed no configuration. -/
theorem sameConfig_enter_finish (s : State) (q : Seq) (r : CallResult) : sameConfig s ((s.enter q).finish r) :=
  ⟨rfl, rfl, rfl, rfl, rfl⟩

/-- Settles O9: CONFIGURE's two tests give its three ways to end, and each end is written out. -/
theorem configureConfiguresOnce : Obligations.ConfigureConfiguresOnce := by
  intro s
  by_cases hp : s.phase ≠ .unconfigured
  · refine ⟨_, exec_configure_of_configured hp, rfl, ?_⟩
    rw [if_pos hp]
    exact ⟨rfl, sameConfig_enter_finish _ _ _⟩
  have hun : s.phase = .unconfigured := not_not.mp hp
  have hbad := badReadSet_eq_true_iff s.params s.args.readset
  cases hb : badReadSet s.params s.args.readset with
  | true =>
    refine ⟨_, exec_configure_of_badReadSet hun hb, rfl, ?_⟩
    rw [if_neg hp, if_pos (hbad.mp hb)]
    exact ⟨rfl, sameConfig_enter_finish _ _ _⟩
  | false =>
    refine ⟨_, exec_configure_ok hun hb, rfl, ?_⟩
    rw [if_neg hp, if_neg fun h => Bool.eq_false_iff.mp hb (hbad.mpr h)]
    exact ⟨rfl, rfl, rfl, rfl, fun v _ => readset_getD_getLsbD_iff s.args.readset v⟩

/-! The phase gate: the three host operations that need READY are refused in the state in which they were entered. -/

/-- Outside READY the phase check of a read comes before every other (R231, R277). -/
theorem readFlow_notReady {s : State} (hp : s.phase ≠ .ready) (cmd : Byte) (dst n : Nat) (inSpace : Bool) :
    readFlow cmd dst n inSpace s = .refuse .notReady s := if_pos hp

theorem exec_sendCommand_notReady {s : State} (hp : s.phase ≠ .ready) (cmd : Byte) :
    exec (.sendCommand cmd) s = .next ((s.enter .check).finish (.refused .notReady)) := if_pos hp

theorem exec_readCommand_notReady {s : State} (hp : s.phase ≠ .ready) (cmd : Byte) :
    exec (.readCommand cmd) s =
      .next (((s.enter .check).havoc s.argAddr s.argLen).finish (.refused .notReady)) := by
  rw [exec_readCommand, readCall, readFlow_notReady (s := s.enter .check) hp]
  rfl

theorem exec_isDisplayOn_notReady {s : State} (hp : s.phase ≠ .ready) :
    exec .isDisplayOn s = .next ((s.enter .check).finish (.refused .notReady)) := by
  simp [exec, execIsDisplayOn, readFlow_notReady (s := s.enter .check) hp]

/-- READY is left by no operation: CONFIGURE is refused there, and no other one writes PHASE. -/
theorem exec_phase_ready {i : Instr} {s t : State} (hp : s.phase = .ready) (h : exec i s = .next t) :
    t.phase = .ready := by
  by_cases hi : i = .configure
  · subst hi
    rw [exec_configure_of_configured (by simp [hp])] at h
    cases h
    exact hp
  · obtain ⟨_, hphase, _, _, _⟩ := exec_sameConfig hi h
    exact hphase.trans hp

/-- Settles O10: outside READY each of the three operations is refused where it was entered; READY itself stays by
`exec_phase_ready`. -/
theorem phaseGatesHostOperations : Obligations.PhaseGatesHostOperations := by
  refine ⟨fun i s hp hop => ?_, fun i s t => exec_phase_ready⟩
  rcases hop with ⟨cmd, rfl⟩ | ⟨cmd, rfl⟩ | rfl
  · have h := exec_sendCommand_notReady hp cmd
    exact ⟨_, h, rfl, endedInCheck_enter_finish _ _, exec_sameConfig (by simp) h⟩
  · have h := exec_readCommand_notReady hp cmd
    exact ⟨_, h, rfl, endedInCheck_enter_havoc_finish _ _ _ _, exec_sameConfig (by simp) h⟩
  · have h := exec_isDisplayOn_notReady hp
    exact ⟨_, h, rfl, endedInCheck_enter_finish _ _, exec_sameConfig (by simp) h⟩

/-! The read path of SEND_COMMAND (R235). -/

/-- Settles O32: SEND_COMMAND's arm for a classified command is READ_COMMAND's, which on Option 1 stops before O3.READ. -/
theorem classifiedSendIsARead : Obligations.ClassifiedSendIsARead := by
  intro cmd s hp hc
  refine ⟨exec_sendCommand_read hp hc, fun hv hf => ?_⟩
  have hread := readCall_of_readFlow_err (s := s.enter .check) hf
    (readFlow_unsupported (cmd := cmd) (s := s.enter .check) hp (.inr hv) _ _)
  exact ⟨_, (exec_sendCommand_read hp hc).trans hread, rfl, rfl⟩

end Sys2Proof.Machine
end

section
/-! PROOF. How a call ends whose scratch is not allocated (60_exceptions.md R275), and the reserved selectors
(45_dispatcher.md R239). -/

namespace Sys2Proof.Machine

/-- The state in which ALLOC raises ResourceExhausted: SEQ has entered ALLOC, and the allocator's answer is used up. -/
def State.allocDenied (s : State) : State :=
  (s.setSeq .alloc).setIo { s.io with alloc := s.io.alloc.tick }

/-- A failed allocation stops the call there. -/
theorem State.allocate_eq_allocDenied {s : State} (ha : s.allocAnswer = false) :
    s.allocate = .err .resourceExhausted s.allocDenied := State.allocate_fail ha

/-! A write call whose scratch is denied. -/

/-- A call of which `writePasses` holds is let through by the checks of its route, whichever that is (R233). -/
theorem writeCheck_sample_of_writePasses {cmd : Byte} {s : State} (h : s.writePasses cmd) :
    writeCheck cmd s.argLen s.sample = .go s.sample := by
  obtain ⟨-, hroute⟩ := h
  cases hv : s.variant with
  | option1 =>
    cases h9 : s.supports9 with
    | true =>
      have ht : 2 ≤ s.maxXfer := by simpa [hv, h9] using hroute
      rw [writeCheck_n9 cmd _ (State.sample_route_n9 hv h9), State.sample_t, if_neg (by omega)]
    | false =>
      have ht : 9 ≤ s.maxXfer := by simpa [hv, h9] using hroute
      rw [writeCheck_e8 cmd _ (State.sample_route_e8 hv h9), State.sample_t, if_neg (by omega)]
  | option3 =>
    rw [hv] at hroute
    obtain ⟨ht, hwide⟩ := hroute
    have hlarge : ¬ (s.maxXfer < 1 ∨ (s.wide cmd ∧ 0 < s.argLen ∧ s.maxXfer < 2)) := by
      rintro (h1 | ⟨hw, hn, h2⟩)
      · omega
      · obtain ⟨hsize, -⟩ := hwide hw
        omega
    have heven : ¬ (s.wide cmd ∧ s.argLen % 2 = 1) := by
      rintro ⟨hw, hodd⟩
      obtain ⟨-, hzero⟩ := hwide hw
      omega
    exact (writeCheck_sample_o3 hv cmd _).trans ((if_neg hlarge).trans (if_neg heven))

/-- A write call that passes its checks and is denied its scratch ends in ALLOC, before its encoder. -/
theorem writeCall_of_allocAnswer_false {cmd : Byte} {s : State} (h : s.writePasses cmd) (ha : s.allocAnswer = false) :
    writeCall cmd s = .err .resourceExhausted s.sample.allocDenied := by
  have ⟨hf, _⟩ := h
  rw [writeCall, if_pos hf, writeCheck_sample_of_writePasses h, Flow.andThen_go,
    State.allocate_eq_allocDenied ((State.sample_allocAnswer s).trans ha), Flow.andThen_err]

/-- What sampling and the denied allocation write is no part of what a write call's ending speaks of. -/
theorem writeEnded_enter_sample_allocDenied_finish (s : State) (q : Seq) (r : CallResult) :
    writeEnded s ((s.enter q).sample.allocDenied.finish r) [] r := by
  obtain ⟨io, c, h⟩ := (s.enter q).sample_eq_setIo_setCall
  simp [h, State.allocDenied, writeEnded, sameConfig, sameHost, atRest, selAfter]

theorem enter_sample_allocDenied_finish_trail (s : State) (r : CallResult) :
    ((s.enter .check).sample.allocDenied.finish r).trail = [.check, .alloc, .done] := by
  obtain ⟨io, c, h⟩ := (s.enter .check).sample_eq_setIo_setCall
  simp [h, State.allocDenied]

/-- R275 for a SEND_COMMAND that is a write. -/
theorem sendCommand_resourceExhausted {cmd : Byte} {s : State} (hp : s.phase = .ready) (hc : s.classify cmd = false)
    (h : s.writePasses cmd) (ha : s.allocAnswer = false) :
    ∃ t, exec (.sendCommand cmd) s = .next t ∧ writeEnded s t [] (.err .resourceExhausted) ∧
      t.trail = [.check, .alloc, .done] := by
  refine ⟨_, ?_, writeEnded_enter_sample_allocDenied_finish s .check _, enter_sample_allocDenied_finish_trail s _⟩
  rw [exec_sendCommand_write hp hc, writeCall_of_allocAnswer_false (s := s.enter .check) h ha]
  rfl

/-! A read call whose scratch is denied. -/

/-- The lengths that O3.READ's checks let through, for a command of the read set (R202, R209). -/
theorem o3ReadCheck_go {cmd : Byte} {n : Nat} {s : State} (hc : s.classify cmd = true)
    (hn : if isDcCmd s.params cmd then n = 3 ∨ n = 4 else 0 < n) : o3ReadCheck cmd n s = .go s := by
  cases hdc : isDcCmd s.params cmd with
  | true => rw [o3ReadCheck_dummyClock hc hdc, if_pos (by simpa [hdc] using hn)]
  | false =>
    have hpos : 0 < n := by simpa [hdc] using hn
    rw [o3ReadCheck_normal hc hdc, if_neg hpos.ne']

/-- O3.READ that passes its checks and is denied its scratch ends in ALLOC, before the command phase. -/
theorem o3ReadRaw_of_allocAnswer_false {cmd : Byte} {n : Nat} {s : State} (hgo : o3ReadCheck cmd n s = .go s)
    (ha : s.allocAnswer = false) (dst : Nat) :
    o3ReadRaw cmd dst n s = .err .resourceExhausted s.allocDenied := by
  rw [o3ReadRaw, hgo, Flow.andThen_go, State.allocate_eq_allocDenied ha, Flow.andThen_err]

/-- A read call that is denied its scratch ends in ALLOC, its destination left to R57. -/
theorem readCall_of_readFlow_allocDenied {cmd : Byte} {s : State} (hf : s.fits s.argAddr s.argLen = true)
    (h : readFlow cmd s.argAddr s.argLen true s = .err .resourceExhausted s.allocDenied) :
    readCall cmd s = .next ((s.allocDenied.havoc s.argAddr s.argLen).finish (.err .resourceExhausted)) := by
  rw [readCall, hf, h]
  rfl

/-- A read call that fails in ALLOC has changed nothing but its outcome and its destination. -/
theorem readEnded_enter_allocDenied_havoc_finish {s : State} (hwf : s.mem.wf = true) (dst n : Nat) (q : Seq)
    (r : CallResult) : readEnded dst n s (((s.enter q).allocDenied.havoc dst n).finish r) [] r := by
  have hmem : memSameOutside dst n s (((s.enter q).allocDenied.havoc dst n).finish r) :=
    State.havoc_memSameOutside (s := (s.enter q).allocDenied) hwf dst n
  exact ⟨rfl, (List.append_nil _).symm, rfl, hmem, ⟨rfl, rfl, rfl, rfl, rfl⟩, ⟨rfl, rfl⟩, rfl, rfl⟩

/-- R275 for READ_COMMAND on Option 3. -/
theorem readCommand_resourceExhausted {cmd : Byte} {s : State} (hp : s.phase = .ready) (hwf : s.mem.wf = true)
    (hc : s.classify cmd = true) (hv : s.variant = .option3) (hf : s.fits s.argAddr s.argLen = true)
    (hn : if isDcCmd s.params cmd then s.argLen = 3 ∨ s.argLen = 4 else 0 < s.argLen) (ha : s.allocAnswer = false) :
    ∃ t, exec (.readCommand cmd) s = .next t ∧
      readEnded s.argAddr s.argLen s t [] (.err .resourceExhausted) ∧ t.trail = [.check, .alloc, .done] := by
  have hflow : readFlow cmd s.argAddr s.argLen true (s.enter .check) =
      .err .resourceExhausted (s.enter .check).allocDenied :=
    (readFlow_option3 (s := s.enter .check) hp hc hv _ _).trans
      (o3ReadRaw_of_allocAnswer_false (o3ReadCheck_go (s := s.enter .check) hc hn) ha _)
  exact ⟨_, (exec_readCommand cmd s).trans (readCall_of_readFlow_allocDenied (s := s.enter .check) hf hflow),
    readEnded_enter_allocDenied_havoc_finish hwf _ _ _ _, rfl⟩

/-- Settles O31: either call passes its checks, is denied its scratch, and ends there with ResourceExhausted. -/
theorem allocationFailureIsResourceExhausted : Obligations.AllocationFailureIsResourceExhausted := by
  intro cmd s hp hwf ha
  exact ⟨fun hc hpass => sendCommand_resourceExhausted hp hc hpass ha,
    fun hc hv hf hn => readCommand_resourceExhausted hp hwf hc hv hf hn ha⟩

/-! The reserved selectors. -/

/-- A reserved selector is refused where it was entered, with no test of PHASE or of its operands (R239). -/
theorem exec_reservedOp (op : BitVec 3) (c : Byte) (s : State) :
    exec (.reservedOp op c) s = .next ((s.enter .check).finish (.refused .reservedOp)) := rfl

/-- Settles O12: entering and finishing a call write only SEQ, its trail, the per-call state and the outcome. -/
theorem reservedSelectorsAreRefused : Obligations.ReservedSelectorsAreRefused :=
  fun op c s => ⟨_, exec_reservedOp op c s, rfl⟩

end Sys2Proof.Machine
end

section
/-! PROOF. The emulated frames as the table writes them (30_encoding.md R72 to R74): PACK gives a group's pattern, and an
8-byte frame that decodes is PACK of its data words. -/

namespace Sys2Proof.Machine

/-! Bytes of a value that is put together from parts. -/

/-- The bytes of a value that ends in a byte: those of the value above it, then that byte. -/
theorem bytesOf_append_byte {w : Nat} (k : Nat) (v : BitVec w) (b : Byte) :
    bytesOf (k + 1) (v ++ b) = bytesOf k v ++ [b] := by
  have hlow : (v ++ b).extractLsb' 0 8 = b := by
    rw [extractLsb'_append_low _ _ _ _ (Nat.le_refl 8), extractLsb'_whole]
  have hhigh : bytesOf k ((v ++ b) >>> 8) = bytesOf k v := by
    refine List.map_congr_left fun j _ => BitVec.eq_of_getLsbD_eq fun i hi => ?_
    have hbit : 8 + (8 * (k - 1 - j) + i) - 8 = 8 * (k - 1 - j) + i := by omega
    simp only [BitVec.getLsbD_extractLsb', BitVec.getLsbD_ushiftRight]
    rw [getLsbD_append_high v b _ (by omega), hbit]
  rw [bytesOf_succ, hlow, hhigh]

/-- A data word slot behind a value: its control bit, and then its byte. -/
theorem append_slot {w : Nat} (v : BitVec w) (b : Byte) : v ++ slot b = v ++ 1#1 ++ b := by
  simp [slot, BitVec.append_assoc]

/-! The slots of an ACC. -/

/-- An ACC is its seven word slots and its last bit. -/
theorem acc_ext {v w : Acc} (hslots : ∀ j ≤ 6, v.extractLsb' (55 - 9 * j) 9 = w.extractLsb' (55 - 9 * j) 9)
    (hlast : v.getLsbD 0 = w.getLsbD 0) : v = w := by
  apply BitVec.eq_of_getLsbD_eq
  intro q hq
  obtain rfl | hpos := Nat.eq_zero_or_pos q
  · exact hlast
  have hbit := congrArg (fun x : Word9 => x.getLsbD (q - (55 - 9 * ((63 - q) / 9)))) (hslots ((63 - q) / 9) (by omega))
  have hin : q - (55 - 9 * ((63 - q) / 9)) < 9 := by omega
  have hat : 55 - 9 * ((63 - q) / 9) + (q - (55 - 9 * ((63 - q) / 9))) = q := by omega
  simpa only [BitVec.getLsbD_extractLsb', hin, hat, decide_true, Bool.true_and] using hbit

/-- The bytes of a 64-bit pattern that has a group's data words in its slots, zeros behind them, and slot 7's control bit
last, are the bytes of PACK's ACC. -/
theorem bytesOf_eight_of_slots {g : List Byte} {w : Nat} (hw : w = 64) {v : BitVec w}
    (hslots : ∀ j ≤ 6, v.extractLsb' (55 - 9 * j) 9 = (g[j]?.map slot).getD 0)
    (hlast : v.getLsbD 0 = decide (7 < g.length)) : bytesOf 8 v = bytesOf 8 (packAcc true g) := by
  subst hw
  refine congrArg _ (acc_ext (fun j hj => ?_) ?_)
  · rw [hslots j hj, packAcc, packFrom_slot true 0 g hj, if_pos (Nat.zero_le j)]
    rfl
  · rw [hlast, packAcc, packFrom_getLsbD_zero]
    simp

/-- Behind the words of a partial group ACC has only zeros. -/
theorem packFrom_low_zero (c : Bool) (i : Nat) (g : List Byte) {q : Nat} (hq : q + 9 * (i + g.length) < 64) :
    (packFrom c i g).getLsbD q = false := by
  induction g generalizing i with
  | nil => simp [packFrom]
  | cons b rest ih =>
    rw [List.length_cons] at hq
    have hi : i ≤ 6 := by omega
    have hbelow : q < 55 - 9 * i := by omega
    rw [packFrom, BitVec.getLsbD_or, ih (i + 1) (by omega), if_pos hi]
    simp [hbelow]

theorem packAcc_shiftLeft (g : List Byte) : packAcc true g <<< (9 * g.length) = 0 := by
  apply BitVec.eq_of_getLsbD_eq
  intro q hq
  have hlow := packFrom_low_zero true 0 g (q := q - 9 * g.length)
  rw [BitVec.getLsbD_shiftLeft]
  by_cases hin : q < 9 * g.length
  · simp [hin]
  · simp [packAcc, hlow (by omega)]

/-! The rows of the emulated data frames. -/

/-- The group of bytes an emulated data row carries. -/
def groupOf : Instr → Option (List Byte)
  | .e8Full b0 b1 b2 b3 b4 b5 b6 b7 => some [b0, b1, b2, b3, b4, b5, b6, b7]
  | .e8Part1 b0 => some [b0]
  | .e8Part2 b0 b1 => some [b0, b1]
  | .e8Part3 b0 b1 b2 => some [b0, b1, b2]
  | .e8Part4 b0 b1 b2 b3 => some [b0, b1, b2, b3]
  | .e8Part5 b0 b1 b2 b3 b4 => some [b0, b1, b2, b3, b4]
  | .e8Part6 b0 b1 b2 b3 b4 b5 => some [b0, b1, b2, b3, b4, b5]
  | .e8Part7 b0 b1 b2 b3 b4 b5 b6 => some [b0, b1, b2, b3, b4, b5, b6]
  | _ => none

/-- R141 against the table: the encoding of an emulated data row is PACK of its group. -/
theorem encode_eq_pack {i : Instr} {g : List Byte} (h : groupOf i = some g) : encode i = pack true g := by
  cases i <;> simp only [groupOf, Option.some.injEq, reduceCtorEq] at h <;> subst h
  case e8Full b0 b1 b2 b3 b4 b5 b6 b7 =>
    rw [encode, append_slot _ b7, bytesOf_append_byte, pack_full true rfl]
    refine congrArg (· ++ [b7]) (bytesOf_eight_of_slots rfl (fun j hj => ?_) (getLsbD_append_low _ _ _ (by decide)))
    interval_cases j <;>
      simp (disch := decide) only [extractLsb'_append_high, extractLsb'_append_low, extractLsb'_whole, Nat.reduceSub,
        Nat.reduceMul] <;> rfl
  all_goals
    rw [encode, pack_partial true (by simp)]
    refine bytesOf_eight_of_slots rfl (fun j hj => ?_) (getLsbD_append_low _ _ _ (by decide))
    interval_cases j <;>
      simp (disch := decide) only [extractLsb'_append_high, extractLsb'_append_low, extractLsb'_whole, Nat.reduceSub,
        Nat.reduceMul] <;> rfl

end Sys2Proof.Machine
end

section
/-! PROOF. The decoder and the encoder agree (30_encoding.md R71 to R74, R77 to R80, R84). -/

namespace Sys2Proof.Machine

/-! 8-byte frames: what the decoder reads from an ACC, and which ACC reads so. -/

/-- Word i of an ACC is what the decoder reads in its slot i. -/
theorem accWord_eq (a : Acc) (i : Nat) : accWord a i = (accCtl a i, accByte a i) := rfl

theorem accCtl_packAcc (g : List Byte) {i : Nat} (hi : i < 7) : accCtl (packAcc true g) i = decide (i < g.length) := by
  have h := congrArg Prod.fst ((accWord_eq _ i).symm.trans (accWord_packAcc true g hi))
  by_cases hin : i < g.length <;> simpa [hin] using h

theorem accByte_packAcc (g : List Byte) {i : Nat} (hi : i < 7) (hin : i < g.length) :
    accByte (packAcc true g) i = g[i] := by
  have h := congrArg Prod.snd ((accWord_eq _ i).symm.trans (accWord_packAcc true g hi))
  simpa [hin] using h

/-- The k of E64-k is the number of bytes PACK was given. -/
theorem leadingWords_packAcc {g : List Byte} (hg : g.length ≤ 7) : leadingWords (packAcc true g) = g.length := by
  have hrange : List.range 7 = [0, 1, 2, 3, 4, 5, 6] := rfl
  simp only [leadingWords, hrange, List.takeWhile, accCtl_packAcc, Nat.reduceLT]
  interval_cases g.length <;> rfl

/-- The leading words are data words. -/
theorem accCtl_of_lt_leadingWords {a : Acc} {i : Nat} (hi : i < leadingWords a) : accCtl a i = true := by
  have hprefix := List.takeWhile_prefix (l := List.range 7) (accCtl a)
  have hmem := List.getElem_mem hi
  rw [hprefix.getElem hi, List.getElem_range] at hmem
  exact List.mem_takeWhile_imp hmem

/-- R74: an ACC of k leading data words and zeros behind them is PACK of their bytes. -/
theorem eq_packAcc_of_leadingWords {a : Acc} {k : Nat} (hlead : leadingWords a = k) (hk : k ≤ 7)
    (hzero : a <<< (9 * k) = 0) : a = packAcc true ((List.range k).map (accByte a)) := by
  have hbehind : ∀ q, q + 9 * k < 64 → a.getLsbD q = false := fun q hq => by
    have hbit := congrArg (fun v : Acc => v.getLsbD (9 * k + q)) hzero
    simpa [show 9 * k + q < 64 by omega, show q < 64 by omega] using hbit
  refine acc_ext (fun j hj => ?_) ?_
  · rw [packAcc, packFrom_slot true 0 _ hj, if_pos (Nat.zero_le j)]
    by_cases hin : j < k
    · have hctl : a.getLsbD (63 - 9 * j) = true := accCtl_of_lt_leadingWords (hlead ▸ hin)
      have hslot := slot_of_ctl a (55 - 9 * j) (63 - 9 * j) (by omega) hctl
      exact hslot.symm.trans (by simp [hin, word9, slot, accByte])
    · refine BitVec.eq_of_getLsbD_eq fun q hq => ?_
      rw [BitVec.getLsbD_extractLsb', hbehind _ (by omega)]
      simp [hin]
  · rw [packAcc, packFrom_getLsbD_zero, hbehind 0 (by omega)]
    simp [hk]

/-- PACK of a partial group decodes to its row. -/
theorem decodeFrame8_packAcc {i : Instr} {g : List Byte} (h : groupOf i = some g) (hg : g.length ≤ 7) :
    decodeFrame8 (packAcc true g) = .ok i := by
  have hlead := leadingWords_packAcc hg
  have hshift := packAcc_shiftLeft g
  have hbyte := fun j (hj : j < g.length) => accByte_packAcc g (by omega : j < 7) hj
  cases i <;> simp only [groupOf, Option.some.injEq, reduceCtorEq] at h <;> subst h
  case e8Full => simp at hg
  all_goals simp_all [decodeFrame8]

/-- Only PACK of a partial group decodes to a row. -/
theorem groupOf_of_decodeFrame8 {a : Acc} {i : Instr} (h : decodeFrame8 a = .ok i) :
    ∃ g, groupOf i = some g ∧ g.length ≤ 7 ∧ a = packAcc true g := by
  unfold decodeFrame8 at h
  split at h
  · cases h
  next hzero =>
    replace hzero := not_not.mp hzero
    split at h <;> cases h
    all_goals
      next hlead =>
      rw [hlead] at hzero
      exact ⟨_, rfl, by simp, eq_packAcc_of_leadingWords hlead (by decide) hzero⟩

/-! 9-byte frames. -/

/-- R72: the slots of eight data words decode to E8.FULL. -/
theorem decodeFrame9_slots (b0 b1 b2 b3 b4 b5 b6 b7 : Byte) :
    decodeFrame9 (slot b0 ++ slot b1 ++ slot b2 ++ slot b3 ++ slot b4 ++ slot b5 ++ slot b6 ++ slot b7) =
      .ok (.e8Full b0 b1 b2 b3 b4 b5 b6 b7) := by
  have hrange : List.range 8 = [0, 1, 2, 3, 4, 5, 6, 7] := rfl
  simp (disch := decide) only [decodeFrame9, hrange, List.all_cons, List.all_nil, frameCtl, frameByte,
    getLsbD_append_high, getLsbD_append_low, slot_ctl, extractLsb'_append_high, extractLsb'_append_low, slot_byte,
    Nat.reduceSub, Nat.reduceMul, Bool.and_self, if_true]

/-- R73: a command frame decodes to E8.CMD. -/
theorem decodeFrame9_command (c : Byte) : decodeFrame9 (0#64 ++ c) = .ok (.e8Cmd c) := by
  have hctl : frameCtl (0#64 ++ c) 0 = false := getLsbD_append_high _ _ _ (by decide)
  have hzero : (0#64 ++ c).extractLsb' 8 64 = 0 := extractLsb'_append_high _ _ _ _ (by decide)
  have hbyte : (0#64 ++ c).extractLsb' 0 8 = c := by
    rw [extractLsb'_append_low _ _ _ _ (by decide), extractLsb'_whole]
  have hmixed : ¬ (List.range 8).all (frameCtl (0#64 ++ c)) = true := fun h => by
    have h0 := List.all_eq_true.mp h 0 (by decide)
    rw [hctl] at h0
    cases h0
  rw [decodeFrame9, if_neg hmixed, if_pos hzero, hbyte]

/-- R72: a frame whose control bits are all 1 is the slots of its bytes. -/
theorem slots_of_frameCtl {g : Frame} (h : ∀ i < 8, frameCtl g i = true) :
    slot (frameByte g 0) ++ slot (frameByte g 1) ++ slot (frameByte g 2) ++ slot (frameByte g 3) ++
      slot (frameByte g 4) ++ slot (frameByte g 5) ++ slot (frameByte g 6) ++ slot (frameByte g 7) = g := by
  have hslot : ∀ i < 8, slot (frameByte g i) = g.extractLsb' (63 - 9 * i) 9 := fun i hi =>
    slot_of_ctl g (63 - 9 * i) (71 - 9 * i) (by omega) (h i hi)
  rw [hslot 0 (by decide), hslot 1 (by decide), hslot 2 (by decide), hslot 3 (by decide), hslot 4 (by decide),
    hslot 5 (by decide), hslot 6 (by decide), hslot 7 (by decide),
    extractLsb'_append_extractLsb' g 54 9 9 63 rfl, extractLsb'_append_extractLsb' g 45 18 9 54 rfl,
    extractLsb'_append_extractLsb' g 36 27 9 45 rfl, extractLsb'_append_extractLsb' g 27 36 9 36 rfl,
    extractLsb'_append_extractLsb' g 18 45 9 27 rfl, extractLsb'_append_extractLsb' g 9 54 9 18 rfl,
    extractLsb'_append_extractLsb' g 0 63 9 9 rfl]
  exact extractLsb'_whole g

/-- A 9-byte frame that decodes is the encoding's value of its row. -/
theorem encode_of_decodeFrame9 {g : Frame} {i : Instr} (h : decodeFrame9 g = .ok i) :
    i.wellFormed = true ∧ i.port = .e8 ∧ encode i = bytesOf 9 g := by
  unfold decodeFrame9 at h
  split at h
  next hall =>
    cases h
    exact ⟨rfl, rfl, congrArg (bytesOf 9)
      (slots_of_frameCtl fun i hi => List.all_eq_true.mp hall i (List.mem_range.mpr hi))⟩
  next =>
    split at h <;> cases h
    next hzero =>
      have hjoin : 0#64 ++ g.extractLsb' 0 8 = g :=
        calc 0#64 ++ g.extractLsb' 0 8 = g.extractLsb' 8 64 ++ g.extractLsb' 0 8 := by rw [hzero]; rfl
          _ = g := (extractLsb'_append_extractLsb' g 0 64 8 8 rfl).trans (extractLsb'_whole g)
      exact ⟨rfl, rfl, congrArg (bytesOf 9) hjoin⟩

/-! The other formats. -/

/-- The bytes of a value that is put together from bytes are those bytes. -/
theorem bytesOf_two_append (b0 b1 : Byte) : bytesOf 2 (b0 ++ b1) = [b0, b1] := by
  simp only [bytesOf_append_byte, bytesOf_one, List.cons_append, List.nil_append]

theorem bytesOf_four_append (b0 b1 b2 b3 : Byte) : bytesOf 4 (b0 ++ b1 ++ b2 ++ b3) = [b0, b1, b2, b3] := by
  simp only [bytesOf_append_byte, bytesOf_one, List.cons_append, List.nil_append]

theorem bytesOf_five_append (b0 b1 b2 b3 b4 : Byte) :
    bytesOf 5 (b0 ++ b1 ++ b2 ++ b3 ++ b4) = [b0, b1, b2, b3, b4] := by
  simp only [bytesOf_append_byte, bytesOf_one, List.cons_append, List.nil_append]

theorem bytesOf_eight_append (b0 b1 b2 b3 b4 b5 b6 b7 : Byte) :
    bytesOf 8 (b0 ++ b1 ++ b2 ++ b3 ++ b4 ++ b5 ++ b6 ++ b7) = [b0, b1, b2, b3, b4, b5, b6, b7] := by
  simp only [bytesOf_append_byte, bytesOf_one, List.cons_append, List.nil_append]

theorem bytesOf_nine_append (b0 b1 b2 b3 b4 b5 b6 b7 b8 : Byte) :
    bytesOf 9 (b0 ++ b1 ++ b2 ++ b3 ++ b4 ++ b5 ++ b6 ++ b7 ++ b8) = [b0, b1, b2, b3, b4, b5, b6, b7, b8] := by
  simp only [bytesOf_append_byte, bytesOf_one, List.cons_append, List.nil_append]

theorem decode_bytesOf_eight (a : Acc) : decode .e8 (bytesOf 8 a) = decodeFrame8 a := congrArg decodeFrame8 (join_eight a)

theorem decode_bytesOf_nine (g : Frame) : decode .e8 (bytesOf 9 g) = decodeFrame9 g := congrArg decodeFrame9 (join_nine g)

theorem decode_bytesOf_four (v : BitVec 32) : decode .rddc (bytesOf 4 v) = .ok (decodeRddc3 v) :=
  congrArg (fun v => Except.ok (decodeRddc3 v)) (join_four v)

theorem decode_bytesOf_five (v : BitVec 40) : decode .rddc (bytesOf 5 v) = .ok (decodeRddc4 v) :=
  congrArg (fun v => Except.ok (decodeRddc4 v)) (join_five v)

/-- R80: the fields of RDDC-3 stand where the decoder looks for them. -/
theorem decodeRddc3_fields (x : BitVec 1) (a b c : Byte) (y : BitVec 7) :
    decodeRddc3 (x ++ a ++ b ++ c ++ y) = .o3Rddc3 x a b c y := by
  simp (disch := decide) only [decodeRddc3, extractLsb'_append_high, extractLsb'_append_low, extractLsb'_whole,
    Nat.reduceSub]

theorem decodeRddc4_fields (x : BitVec 1) (a b c d : Byte) (y : BitVec 7) :
    decodeRddc4 (x ++ a ++ b ++ c ++ d ++ y) = .o3Rddc4 x a b c d y := by
  simp (disch := decide) only [decodeRddc4, extractLsb'_append_high, extractLsb'_append_low, extractLsb'_whole,
    Nat.reduceSub]

theorem encode_decodeRddc3 (v : BitVec 32) : encode (decodeRddc3 v) = bytesOf 4 v := by
  refine congrArg (bytesOf 4) ?_
  rw [extractLsb'_append_extractLsb' v 23 1 8 31 rfl, extractLsb'_append_extractLsb' v 15 9 8 23 rfl,
    extractLsb'_append_extractLsb' v 7 17 8 15 rfl, extractLsb'_append_extractLsb' v 0 25 7 7 rfl]
  exact extractLsb'_whole v

theorem encode_decodeRddc4 (v : BitVec 40) : encode (decodeRddc4 v) = bytesOf 5 v := by
  refine congrArg (bytesOf 5) ?_
  rw [extractLsb'_append_extractLsb' v 31 1 8 39 rfl, extractLsb'_append_extractLsb' v 23 9 8 31 rfl,
    extractLsb'_append_extractLsb' v 15 17 8 23 rfl, extractLsb'_append_extractLsb' v 7 25 8 15 rfl,
    extractLsb'_append_extractLsb' v 0 33 7 7 rfl]
  exact extractLsb'_whole v

/-- R84: a reserved selector's op has its top bit set, and stands behind the container's zeros. -/
theorem decodeSelector_reserved {op : BitVec 3} (h : op.getLsbD 2 = true) (c : Byte) :
    decodeSelector (0#5 ++ op) c = .ok (.reservedOp op c) := by
  have hop : op = 4 ∨ op = 5 ∨ op = 6 ∨ op = 7 := by revert op; decide
  rcases hop with rfl | rfl | rfl | rfl <;> rfl

/-- A selector that decodes is well-formed, and its bytes are its encoding. -/
theorem encode_of_decodeSelector {hi lo : Byte} {i : Instr} (h : decodeSelector hi lo = .ok i) :
    i.wellFormed = true ∧ i.port = .hostSel ∧ encode i = [hi, lo] := by
  unfold decodeSelector at h
  split_ifs at h with hcontainer h0 hzero h1 h2 h3 hzero <;> cases h
  · subst h0 hzero; exact ⟨rfl, rfl, rfl⟩
  · subst h1; exact ⟨rfl, rfl, rfl⟩
  · subst h2; exact ⟨rfl, rfl, rfl⟩
  · subst h3 hzero; exact ⟨rfl, rfl, rfl⟩
  · have hop : hi = 4 ∨ hi = 5 ∨ hi = 6 ∨ hi = 7 := by bv_omega
    rcases hop with rfl | rfl | rfl | rfl <;> exact ⟨rfl, rfl, rfl⟩

/-- A native word that decodes is the encoding of its row. -/
theorem encode_of_decodeW9 {hi lo : Byte} {i : Instr} (h : decodeW9 hi lo = .ok i) :
    i.wellFormed = true ∧ i.port = .w9 ∧ encode i = [hi, lo] := by
  unfold decodeW9 at h
  split_ifs at h with h0 h1 <;> cases h
  · subst h0; exact ⟨rfl, rfl, rfl⟩
  · subst h1; exact ⟨rfl, rfl, rfl⟩

/-- An 8-byte frame that decodes is the encoding of its row. -/
theorem encode_of_decodeFrame8 {a : Acc} {i : Instr} (h : decodeFrame8 a = .ok i) :
    i.wellFormed = true ∧ i.port = .e8 ∧ encode i = bytesOf 8 a := by
  obtain ⟨g, hgroup, hlen, rfl⟩ := groupOf_of_decodeFrame8 h
  rw [encode_eq_pack hgroup, pack_partial true (Nat.lt_succ_of_le hlen)]
  cases i <;> simp only [groupOf, reduceCtorEq] at hgroup <;> exact ⟨rfl, rfl, rfl⟩

/-- Settles O6: each row's fields stand where its decoder looks for them. -/
theorem decodeEncodeAgree : Obligations.DecodeEncodeAgree := by
  intro i hwf
  cases i with
  | configure | sendCommand | readCommand | isDisplayOn | classify | n9Cmd | n9Data | o3Cmd | o3Data8 | o3Rd8 => rfl
  | reservedOp op c => exact decodeSelector_reserved hwf c
  | e8Cmd c => exact (decode_bytesOf_nine _).trans (decodeFrame9_command c)
  | e8Full => exact (decode_bytesOf_nine _).trans (decodeFrame9_slots ..)
  | e8Part1 | e8Part2 | e8Part3 | e8Part4 | e8Part5 | e8Part6 | e8Part7 =>
    rw [encode_eq_pack rfl, pack_partial true (by simp)]
    exact (decode_bytesOf_eight _).trans (decodeFrame8_packAcc rfl (by simp))
  | o3Data16 d => exact congrArg (fun v => Except.ok (Instr.o3Data16 v)) (join_two d)
  | o3Rddc3 => exact (decode_bytesOf_four _).trans (congrArg Except.ok (decodeRddc3_fields ..))
  | o3Rddc4 => exact (decode_bytesOf_five _).trans (congrArg Except.ok (decodeRddc4_fields ..))

/-- Settles O7: format by format, what the decoder reads puts the bytes together again. -/
theorem encodeDecodeAgree : Obligations.EncodeDecodeAgree := by
  intro p bs i h
  unfold decode at h
  split at h
  next hi lo => exact encode_of_decodeSelector h
  next => cases h; exact ⟨rfl, rfl, rfl⟩
  next => exact encode_of_decodeW9 h
  next =>
    obtain ⟨hwf, hport, henc⟩ := encode_of_decodeFrame9 h
    exact ⟨hwf, hport, henc.trans (bytesOf_nine_append ..)⟩
  next =>
    obtain ⟨hwf, hport, henc⟩ := encode_of_decodeFrame8 h
    exact ⟨hwf, hport, henc.trans (bytesOf_eight_append ..)⟩
  next => cases h; exact ⟨rfl, rfl, rfl⟩
  next => cases h; exact ⟨rfl, rfl, rfl⟩
  next => cases h; exact ⟨rfl, rfl, bytesOf_two_append ..⟩
  next => cases h; exact ⟨rfl, rfl, rfl⟩
  next => cases h; exact ⟨rfl, rfl, (encode_decodeRddc3 _).trans (bytesOf_four_append ..)⟩
  next => cases h; exact ⟨rfl, rfl, (encode_decodeRddc4 _).trans (bytesOf_five_append ..)⟩
  next => cases h

/-- Settles O8: each of the six words is evaluated. -/
theorem specWordsDecode : Obligations.SpecWordsDecode := ⟨rfl, rfl, rfl, rfl, rfl, rfl⟩

end Sys2Proof.Machine
end

section
/-! PROOF. Frames as 9-bit words (30_encoding.md R75), and the bits of 16-bit words on the wire (20_memory.md R56, R58;
43_option3_command.md R188). -/

namespace Sys2Proof.Machine

/-! Frames. -/

/-- R75: the command frame is seven fillers and the command word. -/
theorem frameWords_commandFrame (cmd : Byte) :
    frameWords (commandFrame cmd) = List.replicate 7 (false, 0) ++ [(false, cmd)] :=
  frameWords_bytesOf_eight_append 0 cmd

/-- The one bit of a partial group's frame that belongs to no word is 0. -/
theorem joined_pack_partial_testBit_zero {g : List Byte} (hg : g.length < 8) :
    (joined (pack true g)).testBit 0 = false := by
  have hlast : (packAcc true g).getLsbD 0 = false := by
    rw [packAcc, packFrom_getLsbD_zero, decide_eq_false (by omega)]
    rfl
  rw [pack_partial true hg, joined_bytesOf_eight]
  exact hlast

/-- Settles O54: the words of PACK's two kinds of frame, and of the command frame. -/
theorem framesAreNineBitWords : Obligations.FramesAreNineBitWords :=
  ⟨fun _ hg => frameWords_pack_full true hg, frameWords_commandFrame, fun _ _ hg =>
    have hlt := Nat.lt_succ_of_le hg
    ⟨frameWords_pack_partial true hlt, length_pack_partial true hlt, joined_pack_partial_testBit_zero hlt⟩⟩

/-! Bits on the wire. -/

/-- R58: a value that is put together from two goes onto the wire as the upper and then the lower one. -/
theorem wordBits_append {n m : Nat} (x : BitVec n) (y : BitVec m) : wordBits (x ++ y) = wordBits x ++ wordBits y := by
  simp only [wordBits, List.range_add, List.map_append, List.map_map]
  congr 1
  · refine List.map_congr_left fun i hi => ?_
    have hi : i < n := List.mem_range.mp hi
    rw [getLsbD_append_high x y _ (by omega)]
    congr 1
    omega
  · refine List.map_congr_left fun i hi => ?_
    have hi : i < m := List.mem_range.mp hi
    rw [Function.comp_apply, getLsbD_append_low x y _ (by omega)]
    congr 1
    omega

/-- R188: a big-endian host's 16-bit words carry the bytes in buffer order. -/
theorem flatMap_wordBits_words16_be : ∀ {bs : List Byte}, bs.length % 2 = 0 →
    (words16 .be bs).flatMap wordBits = bs.flatMap wordBits
  | [], _ => rfl
  | [_], h => by simp at h
  | b0 :: b1 :: rest, h => by
    have hrest : rest.length % 2 = 0 := by simp only [List.length_cons] at h; omega
    rw [words16, List.flatMap_cons, flatMap_wordBits_words16_be hrest, List.flatMap_cons, List.flatMap_cons,
      ← List.append_assoc]
    exact congrArg (· ++ _) (wordBits_append b0 b1)

/-- Settles O55: the bits of a word are those of its bytes, in the order R56 puts them together. -/
theorem wideWordsOnTheWire : Obligations.WideWordsOnTheWire := by
  refine ⟨fun b0 b1 => ?_, fun bs => flatMap_wordBits_words16_be⟩
  have hword : wordBits (word16 .le b0 b1) = wordBits b1 ++ wordBits b0 := wordBits_append b1 b0
  simpa [wireBits, words16] using hword

end Sys2Proof.Machine
end

section
/-! PROOF. What the native transfers carry (41_option1_native.md R122, R123), and how many transfers a byte list takes
(70_reset_and_hazards.md R321). -/

namespace Sys2Proof.Machine

/-! Native transfers. -/

/-- A native chunk takes from 1 to T / 2 bytes, one for each word (R123). -/
theorem size_n9_bounds (c : Bool) {t r : Nat} (ht : 2 ≤ t) (hr : 1 ≤ r) :
    1 ≤ (Framing.n9 c).size t r ∧ (Framing.n9 c).size t r ≤ t / 2 ∧ 1 ∣ (Framing.n9 c).size t r := by
  simp only [Framing.size]
  omega

/-- Settles O49: the native transfers are the words of chunks that are the list's bytes in order. -/
theorem nativeTransfersCarryTheWords : Obligations.NativeTransfersCarryTheWords := by
  intro c t bs ht
  obtain ⟨chunks, hwords, hflat, hall⟩ :=
    transfers_eq_map_chunks (k := 1) (bs := bs) (fun _ hr _ => size_n9_bounds c ht hr) (Nat.one_dvd _)
  refine ⟨chunks.map (List.map (word9 c)), ?_, ?_, ?_⟩
  · rw [hwords, List.map_map]
    rfl
  · rw [← List.map_flatten, hflat]
    rfl
  · rw [List.forall_mem_map]
    intro x hx
    obtain ⟨hpos, hle, -⟩ := hall x hx
    rw [List.length_map]
    exact ⟨hpos, hle⟩

/-! The number of transfers. `k` is the number of bytes of one word, as in `transfers_eq_map_chunks`. -/

/-- Where every chunk but the last takes at least `m` bytes, the number of transfers is that of `m`-byte pieces. -/
theorem transfersFuel_length_mul_le {f : Framing} {t k m : Nat} (hm : 1 ≤ m)
    (hsize : ∀ r, 1 ≤ r → k ∣ r → min m r ≤ f.size t r ∧ k ∣ f.size t r) {fuel : Nat} {bs : List Byte}
    (hk : k ∣ bs.length) : (transfersFuel f t fuel bs).length * m ≤ bs.length + (m - 1) := by
  induction fuel generalizing bs with
  | zero => simp [transfersFuel]
  | succ fuel ih =>
    by_cases hne : bs = []
    · simp [hne, transfersFuel]
    have hpos : 0 < bs.length := List.length_pos_iff.mpr hne
    obtain ⟨htake, hdvd⟩ := hsize bs.length hpos hk
    have hrest : (bs.drop (f.size t bs.length)).length = bs.length - f.size t bs.length := List.length_drop
    have hle := f.size_le t bs.length
    have hmany := ih (bs := bs.drop (f.size t bs.length)) (hrest ▸ Nat.dvd_sub hk hdvd)
    rw [transfersFuel, if_neg (by simpa using hne), List.length_cons, Nat.add_mul, Nat.one_mul]
    by_cases hlast : f.size t bs.length = bs.length
    · have hnil : bs.drop (f.size t bs.length) = [] := List.drop_eq_nil_of_le hlast.ge
      rw [hnil, transfersFuel_nil]
      simp only [List.length_nil]
      omega
    · omega

theorem transfers_length_le {f : Framing} {t m : Nat} (hm : 1 ≤ m) (hsize : ∀ r, 1 ≤ r → min m r ≤ f.size t r)
    (bs : List Byte) : (transfers f t bs).length ≤ (bs.length + (m - 1)) / m :=
  (Nat.le_div_iff_mul_le hm).mpr
    (transfersFuel_length_mul_le (k := 1) hm (fun r hr _ => ⟨hsize r hr, Nat.one_dvd _⟩) (Nat.one_dvd _))

/-- R321 for 16-bit words: as many transfers as the words of the list take. -/
theorem transfers_o3x16_length_le (e : Endian) {t : Nat} (ht : 2 ≤ t) {bs : List Byte} (heven : 2 ∣ bs.length) :
    (transfers (.o3x16 e) t bs).length ≤ (bs.length / 2 + (t / 2 - 1)) / (t / 2) := by
  have hbytes : (transfers (.o3x16 e) t bs).length * (2 * (t / 2)) ≤ bs.length + (2 * (t / 2) - 1) :=
    transfersFuel_length_mul_le (by omega)
      (fun r hr hdvd => ⟨by simp only [Framing.size]; omega, (size_o3x16_bounds e ht hr hdvd).2.2⟩) heven
  rw [Nat.mul_left_comm] at hbytes
  rw [Nat.le_div_iff_mul_le (by omega)]
  omega

/-- Settles O56: each framing's chunk is as long as its ceiling and the bytes left allow. -/
theorem transfersAreBounded : Obligations.TransfersAreBounded := by
  intro t bs e c
  refine ⟨fun ht => ?_, fun ht => ?_, fun ht => ?_, fun ht heven =>
    transfers_o3x16_length_le e ht (Nat.dvd_of_mod_eq_zero heven)⟩
  · exact transfers_length_le (m := 8) (by decide) (fun r _ => by simp only [Framing.size, chunkSize]; omega) bs
  · exact transfers_length_le (by omega) (fun r _ => by simp only [Framing.size]; omega) bs
  · exact transfers_length_le ht (fun r _ => by simp only [Framing.size]; omega) bs

end Sys2Proof.Machine
end

section
/-! PROOF. How a flow that plays a list of actions ends its call, and the leaf operations (R121, R122, R142 to R144, R181,
R182): each plays its one transfer. -/

namespace Sys2Proof.Machine

/-! Ends of calls. -/

/-- The outcome of a call whose actions end so (R273, R274); none where it stays blocked. -/
def Ending.result : Ending → Option CallResult
  | .done => some (.ok none)
  | .failed e => some (.err (.busError e))
  | .blocked => none

/-- A flow that plays its actions to an end with an outcome closes with that outcome, where they leave the machine. -/
theorem Flow.Plays.close_next {s : State} {as : List Action} {f : Flow} (hf : f.Plays s as) {r : CallResult}
    (hr : (play s.xferAnswer 0 as).2.result = some r) :
    ∃ u, f.close = .next (u.finish r) ∧ Played s (play s.xferAnswer 0 as).1 u ∧ ∀ P : State → Prop, f.All P → P u := by
  unfold Flow.Plays at hf
  cases he : (play s.xferAnswer 0 as).2 <;> rw [he] at hf hr <;> cases hr
  case done =>
    obtain ⟨u, rfl, hplayed⟩ := hf
    exact ⟨u, rfl, hplayed, fun _ hP => hP⟩
  case failed e =>
    obtain ⟨u, rfl, hplayed⟩ := hf
    exact ⟨u, rfl, hplayed, fun _ hP => hP⟩

/-- A flow whose actions stay blocked stops the machine (R280). -/
theorem Flow.Plays.close_blocked {s : State} {as : List Action} {f : Flow} (hf : f.Plays s as)
    (hb : (play s.xferAnswer 0 as).2 = .blocked) : f.close = .fault .transferHang := by
  unfold Flow.Plays at hf
  rw [hb] at hf
  subst hf
  rfl

/-- A call that was entered in `q`, stayed there and did some events ends as `leafEnd` has it. -/
theorem Played.finish_eq_leafEnd {s u : State} {q : Seq} {es : List Event} (h : Played (s.enter q) es u)
    (htrail : u.trail = [q]) (r : CallResult) : u.finish r = leafEnd q es r s := by
  obtain ⟨hkept, hevents, hsel, hio⟩ := h
  obtain ⟨hparams, hphase, hvariant, hvalid, hmap, hmem, hpending, hargs, -, -, -, -, -⟩ := hkept
  simp only [State.finish, leafEnd, hparams, hphase, hvariant, hvalid, hmap, hmem, hpending, hargs, hevents, hsel, hio,
    htrail]
  rfl

/-! The flow of a leaf operation. -/

/-- A transfer leaves SEQ where it was. -/
theorem State.send_trail (s : State) (sp : Speed) (k : Nat) (ws : Words) :
    (s.send sp k ws).All fun u => u.trail = s.trail :=
  State.send_all (P := fun u => u.trail = s.trail) (fun _ _ _ _ h => h) (fun _ _ h => h) rfl sp k ws

/-- A data group plays its one transfer (R142, R143). -/
theorem e8Group_plays (g : List Byte) (s : State) : Flow.Plays s [.write (.w8 (pack true g))] (e8Group g s) :=
  Flow.Plays.of_played_nil (Played.setCall s (c := { s.call with acc := packAcc true g }) rfl rfl rfl rfl)
    (State.send_plays _ _ _)

/-- The command row's encoding is the command frame of R144. -/
theorem encode_e8Cmd (c : Byte) : encode (.e8Cmd c) = commandFrame c := bytesOf_append_byte 8 0#64 c

/-- A leaf write by itself closes a flow that plays its plan from where it was entered, and stays there. -/
theorem exec_leaf {i : Instr} {plan : List Action} (h : leafPlan i = some plan) (s : State) :
    ∃ f : Flow, exec i s = f.close ∧ f.Plays (s.enter (leafPhase i)) plan ∧ f.All fun u => u.trail = [leafPhase i] := by
  cases i <;> simp only [leafPlan, Instr.port, reduceIte, reduceCtorEq, Option.some.injEq] at h <;> subst h
  case n9Cmd => exact ⟨_, rfl, State.send_plays _ _ _, State.send_trail _ _ _ _⟩
  case n9Data => exact ⟨_, rfl, State.send_plays _ _ _, State.send_trail _ _ _ _⟩
  case e8Cmd c =>
    rw [encode_e8Cmd]
    exact ⟨_, rfl, e8Command_plays c _, State.send_trail _ _ _ _⟩
  case o3Cmd => exact ⟨_, rfl, Flow.Plays.select (State.send_plays _ _ _), State.send_trail _ _ _ _⟩
  case o3Data8 => exact ⟨_, rfl, Flow.Plays.select (State.send_plays _ _ _), State.send_trail _ _ _ _⟩
  case o3Data16 => exact ⟨_, rfl, Flow.Plays.select (State.send_plays _ _ _), State.send_trail _ _ _ _⟩
  all_goals
    rw [encode_eq_pack rfl]
    exact ⟨_, rfl, e8Group_plays _ _, State.send_trail _ _ _ _⟩

/-- The outcome and the end state of a leaf write, by how its plan is played. -/
theorem exec_leaf_next {i : Instr} {plan : List Action} (h : leafPlan i = some plan) {s : State} {r : CallResult}
    (hr : (play s.xferAnswer 0 plan).2.result = some r) :
    exec i s = .next (leafEnd (leafPhase i) (play s.xferAnswer 0 plan).1 r s) := by
  obtain ⟨f, hexec, hplays, htrail⟩ := exec_leaf h s
  obtain ⟨u, hclose, hplayed, hu⟩ := hplays.close_next hr
  rw [hexec, hclose, hplayed.finish_eq_leafEnd (hu _ htrail)]
  rfl

/-! Transfers that complete. -/

theorem play_write_ok {ans : Nat → XferAnswer} {raw : List Byte} (h : ans 0 = .ok raw) (ws : Words) :
    play ans 0 [.write ws] = ([okWrite ws], .done) := by
  simp [play, h, okWrite]

theorem play_sel_write_ok {ans : Nat → XferAnswer} {raw : List Byte} (h : ans 0 = .ok raw) (l : Level) (ws : Words) :
    play ans 0 [.sel l, .write ws] = ([.sel l, okWrite ws], .done) := by
  simp [play, h, okWrite]

theorem exec_leaf_write_ok {i : Instr} {ws : Words} (h : leafPlan i = some [.write ws]) {s : State} {raw : List Byte}
    (hx : s.xferAnswer 0 = .ok raw) : exec i s = .next (leafEnd (leafPhase i) [okWrite ws] (.ok none) s) := by
  have hplay := play_write_ok hx ws
  rw [exec_leaf_next (r := .ok none) h (by rw [hplay]; rfl), hplay]

theorem exec_leaf_sel_write_ok {i : Instr} {l : Level} {ws : Words} (h : leafPlan i = some [.sel l, .write ws])
    {s : State} {raw : List Byte} (hx : s.xferAnswer 0 = .ok raw) :
    exec i s = .next (leafEnd (leafPhase i) [.sel l, okWrite ws] (.ok none) s) := by
  have hplay := play_sel_write_ok hx l ws
  rw [exec_leaf_next (r := .ok none) h (by rw [hplay]; rfl), hplay]

/-- Settles O13: the plans of the two rows are one transfer of their word. -/
theorem nativeWordsAreSent : Obligations.NativeWordsAreSent :=
  fun _ _ _ hx => ⟨exec_leaf_write_ok rfl hx, exec_leaf_write_ok rfl hx⟩

/-- Settles O14: the plan of the row is one transfer of the command frame. -/
theorem commandFrameIsSent : Obligations.CommandFrameIsSent := by
  intro c s raw hx
  have hplan : leafPlan (.e8Cmd c) = some [.write (.w8 (commandFrame c))] := by rw [← encode_e8Cmd]; rfl
  exact exec_leaf_write_ok hplan hx

/-- Settles O17: the plans of the three rows are the select and one transfer of their word. -/
theorem optionThreeWordsAreSent : Obligations.OptionThreeWordsAreSent :=
  fun _ _ _ _ hx => ⟨exec_leaf_sel_write_ok rfl hx, exec_leaf_sel_write_ok rfl hx, exec_leaf_sel_write_ok rfl hx⟩

/-- An emulated data row sends its encoding; with each slot written as its bit and its byte, that is the table's
pattern. -/
theorem exec_e8_ok {i : Instr} {l : List Byte} (hi : leafPlan i = some [.write (.w8 (encode i))])
    (henc : encode i = l) {s : State} {raw : List Byte} (hx : s.xferAnswer 0 = .ok raw) :
    exec i s = .next (leafEnd (leafPhase i) [okWrite (.w8 l)] (.ok none) s) := by
  rw [exec_leaf_write_ok hi hx, henc]

/-- Settles O15: the row sends its encoding, the pattern of eight slots. -/
theorem fullGroupIsTheTablePattern : Obligations.FullGroupIsTheTablePattern := by
  intro b0 b1 b2 b3 b4 b5 b6 b7 s raw hx
  refine exec_e8_ok rfl ?_ hx
  simp only [encode, append_slot]
  rfl

/-- Settles O16: each row sends its encoding, the pattern of its slots and zeros. -/
theorem partialGroupsAreTheTablePatterns : Obligations.PartialGroupsAreTheTablePatterns := by
  intro a b c d e f g s raw hx
  refine ⟨exec_e8_ok rfl ?_ hx, exec_e8_ok rfl ?_ hx, exec_e8_ok rfl ?_ hx, exec_e8_ok rfl ?_ hx, exec_e8_ok rfl ?_ hx,
    exec_e8_ok rfl ?_ hx, exec_e8_ok rfl ?_ hx⟩
  all_goals
    simp only [encode, append_slot]
    rfl

/-! Transfers that fail, or never return. -/

/-- A leaf write is one transfer, or a select event and one transfer. -/
theorem leafPlan_shape {i : Instr} {plan : List Action} (h : leafPlan i = some plan) :
    ∃ ws, plan = [.write ws] ∨ ∃ l, plan = [.sel l, .write ws] := by
  cases i <;> simp only [leafPlan, Instr.port, reduceIte, reduceCtorEq, Option.some.injEq] at h <;> subst h
  case o3Cmd => exact ⟨_, .inr ⟨_, rfl⟩⟩
  case o3Data8 => exact ⟨_, .inr ⟨_, rfl⟩⟩
  case o3Data16 => exact ⟨_, .inr ⟨_, rfl⟩⟩
  all_goals exact ⟨_, .inl rfl⟩

/-- Settles O18: the one transfer of the plan decides how it ends. -/
theorem leafTransferFailures : Obligations.LeafTransferFailures := by
  intro i plan s hplan
  obtain ⟨f, hexec, hplays, -⟩ := exec_leaf hplan s
  refine ⟨fun e r hx => exec_leaf_next hplan ?_, fun hx => hexec.trans (hplays.close_blocked ?_)⟩
  · obtain ⟨ws, rfl | ⟨l, rfl⟩⟩ := leafPlan_shape hplan <;> simp [play, hx, Ending.result]
  · obtain ⟨ws, rfl | ⟨l, rfl⟩⟩ := leafPlan_shape hplan <;> simp [play, hx]

end Sys2Proof.Machine
end

section
/-! PROOF. Host memory over the operations (20_memory.md R50, R57): what is stored, and what the read formats by themselves
do (44_option3_read.md R205, R206). -/

namespace Sys2Proof.Machine

/-! Storing bytes. -/

/-- MemWrite and then MemRead of the same bytes (R9). -/
theorem Memory.readBytes_writeBytes {m : Memory} (hwf : m.wf = true) (a : Nat) (l : List Byte) :
    (m.writeBytes a l).readBytes a l.length = l := by
  refine List.ext_getElem (by simp) fun i _ hi => ?_
  have hin : a ≤ a + i ∧ a + i < a + l.length := by omega
  simp only [Memory.readBytes, List.getElem_map, List.getElem_range]
  rw [Memory.read_writeBytes l a (a + i) hwf, if_pos hin, Nat.add_sub_cancel_left, List.getD_eq_getElem _ _ hi]

theorem State.storeOut_memSameOutside {s : State} (hwf : s.mem.wf = true) (dst : Nat) (out : List Byte) :
    memSameOutside dst out.length s (s.storeOut dst out) := by
  intro a ha
  rw [State.storeOut_eq, State.setMem_mem, Memory.read_writeBytes out dst a hwf, if_neg ha]

/-! The dummy-clock decode (R205). -/

/-- A result byte is the low 7 bits of one raw byte and the top bit of the next. -/
theorem shiftLeft_or_shiftRight (a b : Byte) : a <<< 1 ||| b >>> 7 = a.extractLsb' 0 7 ++ b.extractLsb' 7 1 := by
  apply BitVec.eq_of_getLsbD_eq
  intro i hi
  obtain rfl | hpos := Nat.eq_zero_or_pos i
  · rw [getLsbD_append_low _ _ _ Nat.one_pos]
    simp
  · have hbeyond : b.getLsbD (7 + i) = false := b.getLsbD_of_ge _ (by omega)
    rw [getLsbD_append_high _ _ _ hpos]
    simp [hi, hbeyond, show ¬ i < 1 by omega, show i - 1 < 7 by omega, show i - 1 < 8 by omega]

/-- So the result byte of two neighbouring bytes of a value is the byte one bit below the upper one. -/
theorem extractLsb'_shift {w : Nat} (v : BitVec w) (p : Nat) :
    v.extractLsb' (p + 8) 8 <<< 1 ||| v.extractLsb' p 8 >>> 7 = v.extractLsb' (p + 7) 8 := by
  have hupper : (v.extractLsb' (p + 8) 8).extractLsb' 0 7 = v.extractLsb' (p + 8) 7 := by
    apply BitVec.eq_of_getLsbD_eq
    intro i hi
    simp [hi, show i < 8 by omega]
  have hlower : (v.extractLsb' p 8).extractLsb' 7 1 = v.extractLsb' (p + 7) 1 := by
    apply BitVec.eq_of_getLsbD_eq
    intro i hi
    simp [hi, show 7 + i < 8 by omega, Nat.add_assoc]
  rw [shiftLeft_or_shiftRight, hupper, hlower]
  exact extractLsb'_append_extractLsb' v (p + 7) 7 1 (p + 8) rfl

/-- R80, R205: three result bytes of RDDC-3, whatever the dummy bit and the ignored bits are. -/
theorem dummyClockDecode_rddc3 (x : BitVec 1) (a b c : Byte) (y : BitVec 7) :
    dummyClockDecode 3 (bytesOf 4 (x ++ a ++ b ++ c ++ y)) = [a, b, c] := by
  have hshift := extractLsb'_shift (x ++ a ++ b ++ c ++ y)
  have hlist : dummyClockDecode 3 (bytesOf 4 (x ++ a ++ b ++ c ++ y)) =
      [(x ++ a ++ b ++ c ++ y).extractLsb' 23 8, (x ++ a ++ b ++ c ++ y).extractLsb' 15 8,
        (x ++ a ++ b ++ c ++ y).extractLsb' 7 8] := by
    rw [← hshift 16, ← hshift 8, ← hshift 0]
    rfl
  rw [hlist]
  simp (disch := decide) only [extractLsb'_append_high, extractLsb'_append_low, extractLsb'_whole, Nat.reduceSub]

theorem dummyClockDecode_rddc4 (x : BitVec 1) (a b c d : Byte) (y : BitVec 7) :
    dummyClockDecode 4 (bytesOf 5 (x ++ a ++ b ++ c ++ d ++ y)) = [a, b, c, d] := by
  have hshift := extractLsb'_shift (x ++ a ++ b ++ c ++ d ++ y)
  have hlist : dummyClockDecode 4 (bytesOf 5 (x ++ a ++ b ++ c ++ d ++ y)) =
      [(x ++ a ++ b ++ c ++ d ++ y).extractLsb' 31 8, (x ++ a ++ b ++ c ++ d ++ y).extractLsb' 23 8,
        (x ++ a ++ b ++ c ++ d ++ y).extractLsb' 15 8, (x ++ a ++ b ++ c ++ d ++ y).extractLsb' 7 8] := by
    rw [← hshift 24, ← hshift 16, ← hshift 8, ← hshift 0]
    rfl
  rw [hlist]
  simp (disch := decide) only [extractLsb'_append_high, extractLsb'_append_low, extractLsb'_whole, Nat.reduceSub]

@[simp] theorem length_dummyClockDecode (n : Nat) (raw : List Byte) : (dummyClockDecode n raw).length = n := by
  simp [dummyClockDecode]

/-! The read formats by themselves (log 2). -/

/-- A destination in the address space gets the result bytes. -/
theorem decodeInto_of_fits {n : Nat} {raw : List Byte} {dc : Bool} {s : State} (hf : s.fits s.argAddr n = true) :
    decodeInto n raw dc s =
      .next ((((s.enter .decode).keepRaw raw).storeOut s.argAddr (readDecode dc n raw)).finish (.ok none)) := by
  have hf' : ((s.enter .decode).keepRaw raw).fits s.argAddr n = true := hf
  rw [decodeInto, if_pos hf']
  rfl

/-- A destination that leaves it is refused (R51). -/
theorem decodeInto_of_not_fits {n : Nat} {raw : List Byte} {dc : Bool} {s : State} (hf : s.fits s.argAddr n = false) :
    decodeInto n raw dc s =
      .next ((((s.enter .decode).keepRaw raw).havoc s.argAddr n).finish (.refused .addrRange)) := by
  have hf' : ((s.enter .decode).keepRaw raw).fits s.argAddr n = false := hf
  rw [decodeInto, hf']
  rfl

theorem decodeInto_stores {n : Nat} {raw out : List Byte} {dc : Bool} {s : State} (hwf : s.mem.wf = true)
    (hout : readDecode dc n raw = out) (hn : out.length = n) (hfit : s.argAddr + n ≤ 2 ^ s.params.addrW) :
    ∃ t, decodeInto n raw dc s = .next t ∧ readEnded s.argAddr n s t [] (.ok none) ∧
      t.mem.readBytes s.argAddr n = out := by
  have hf : s.fits s.argAddr n = true := by simp [State.fits, hfit]
  subst hn
  refine ⟨_, decodeInto_of_fits hf, ⟨rfl, (List.append_nil _).symm, rfl, ?_, ⟨rfl, rfl, rfl, rfl, rfl⟩, ⟨rfl, rfl⟩,
    rfl, rfl⟩, ?_⟩
  · rw [hout]
    exact State.storeOut_memSameOutside (s := (s.enter .decode).keepRaw raw) hwf s.argAddr out
  · rw [hout]
    exact Memory.readBytes_writeBytes hwf s.argAddr out

/-- Settles O19: each format's raw bytes decode to the bytes its row names, and those are stored. -/
theorem readFormatsDecodeIntoMemory : Obligations.ReadFormatsDecodeIntoMemory :=
  fun x a b c d y _ hwf =>
    ⟨decodeInto_stores hwf rfl rfl, decodeInto_stores hwf (dummyClockDecode_rddc3 x a b c y) rfl,
      decodeInto_stores hwf (dummyClockDecode_rddc4 x a b c d y) rfl⟩

/-- The read formats by themselves decode into as many bytes as R57 lets them write. -/
theorem exec_readFormat {i : Instr} (hi : i.port = .rd ∨ i.port = .rddc) (s : State) :
    ∃ raw dc, exec i s = decodeInto (destLength i s) raw dc s ∧
      (readDecode dc (destLength i s) raw).length = destLength i s := by
  cases i <;> simp only [Instr.port, reduceCtorEq, or_self] at hi
  case o3Rd8 => exact ⟨_, _, rfl, rfl⟩
  case o3Rddc3 => exact ⟨_, _, rfl, length_dummyClockDecode _ _⟩
  case o3Rddc4 => exact ⟨_, _, rfl, length_dummyClockDecode _ _⟩

/-- Settles O20: the address check of the format's destination fails. -/
theorem readFormatsOutsideSpaceAreRefused : Obligations.ReadFormatsOutsideSpaceAreRefused := by
  intro i s hwf hi hout
  obtain ⟨raw, dc, hexec, -⟩ := exec_readFormat hi s
  have haddr : s.argAddr < 2 ^ s.params.addrW := Nat.mod_lt _ (Nat.two_pow_pos _)
  have hf : s.fits s.argAddr (destLength i s) = false := (s.fits_eq_false_iff _ _).mpr ⟨by omega, hout⟩
  refine ⟨_, hexec.trans (decodeInto_of_not_fits hf), rfl, (List.append_nil _).symm, rfl, ?_,
    ⟨rfl, rfl, rfl, rfl, rfl⟩, ⟨rfl, rfl⟩, rfl, rfl⟩
  exact State.havoc_memSameOutside (s := (s.enter .decode).keepRaw raw) hwf _ _

end Sys2Proof.Machine
end

section
/-! PROOF. A write call that passes its checks and gets its scratch plays its plan (45_dispatcher.md R233, R234), whatever
the transport answers. -/

namespace Sys2Proof.Machine

/-! States of a call in progress. -/

/-- State `u` is `s` in the midst of a call that has not reached the bus, host memory or the configuration: it differs
only in SEQ and its trail, the per-call state and the answers used. -/
structure InCall (s u : State) : Prop where
  params : u.params = s.params
  phase : u.phase = s.phase
  variant : u.variant = s.variant
  readsetValid : u.readsetValid = s.readsetValid
  readsetMap : u.readsetMap = s.readsetMap
  sel : u.sel = s.sel
  mem : u.mem = s.mem
  pending : u.pending = s.pending
  args : u.args = s.args
  events : u.events = s.events

namespace InCall

variable {s u : State}

theorem enter (s : State) (q : Seq) : InCall s (s.enter q) := ⟨rfl, rfl, rfl, rfl, rfl, rfl, rfl, rfl, rfl, rfl⟩

theorem setSeq (h : InCall s u) (q : Seq) : InCall s (u.setSeq q) := by
  cases h; constructor <;> assumption

theorem setCall (h : InCall s u) (c : Call) : InCall s (u.setCall c) := by
  cases h; constructor <;> assumption

theorem setIo (h : InCall s u) (io : Io) : InCall s (u.setIo io) := by
  cases h; constructor <;> assumption

theorem sample (h : InCall s u) : InCall s u.sample := by
  obtain ⟨io, c, hsample⟩ := u.sample_eq_setIo_setCall
  rw [hsample]
  exact (h.setIo io).setCall c

/-- A call that ends without a fault, with the events it did since `u`, ends as `writeEnded` has it. -/
theorem writeEnded_of_played (h : InCall s u) {t : State} {es : List Event} (hp : Played u es t) (r : CallResult) :
    writeEnded s (t.finish r) es r := by
  have hk := hp.kept
  refine ⟨rfl, ?_, ?_, hk.mem.trans h.mem, ?_, ⟨hk.pending.trans h.pending, hk.args.trans h.args⟩, rfl, rfl⟩
  · rw [State.finish_events, hp.events, h.events]
  · rw [State.finish_sel, hp.sel, h.sel]
  · exact ⟨hk.params.trans h.params, hk.phase.trans h.phase, hk.variant.trans h.variant,
      hk.readsetValid.trans h.readsetValid, hk.readsetMap.trans h.readsetMap⟩

/-- A call that ends where it stands has changed nothing but its outcome. -/
theorem writeEnded (h : InCall s u) (r : CallResult) : writeEnded s (u.finish r) [] r :=
  h.writeEnded_of_played (Played.refl u) r

end InCall

/-- The transport's next answers are those that `io` holds. -/
theorem State.xferAnswer_eq_of_io {s t : State} (h : t.io.xfer = s.io.xfer) : t.xferAnswer = s.xferAnswer := by
  funext j
  rw [State.xferAnswer, h]
  rfl

/-- The state in which a call goes on with its scratch allocated (R275, R276). -/
def State.granted (s : State) : State :=
  ((s.setSeq .alloc).setIo { s.io with alloc := s.io.alloc.tick }).setCall { s.call with allocated := true }

theorem State.allocate_eq_granted {s : State} (ha : s.allocAnswer = true) : s.allocate = .go s.granted :=
  State.allocate_ok ha

theorem InCall.granted {s u : State} (h : InCall s u) : InCall s u.granted := ((h.setSeq _).setIo _).setCall _

theorem InCall.encoderEntry (s : State) : InCall s s.encoderEntry := (InCall.enter s .check).sample.granted

/-! What the encoder of each route takes over. -/

theorem State.encoderEntry_route_n9 {s : State} (hv : s.variant = .option1) (h9 : s.supports9 = true) :
    s.encoderEntry.call.route = .n9 := State.sample_route_n9 (s := s.enter .check) hv h9

theorem State.encoderEntry_route_e8 {s : State} (hv : s.variant = .option1) (h9 : s.supports9 = false) :
    s.encoderEntry.call.route = .e8 := State.sample_route_e8 (s := s.enter .check) hv h9

@[simp] theorem State.encoderEntry_t (s : State) : s.encoderEntry.call.t = s.maxXfer := State.sample_t (s.enter .check)

@[simp] theorem State.encoderEntry_sourceBytes (s : State) : s.encoderEntry.sourceBytes = s.sourceBytes := by
  have h := InCall.encoderEntry s
  simp only [State.sourceBytes, State.argAddr, State.argLen, h.params, h.args, h.mem]

/-- The framing of the data phase is the one R182 gives, in terms of the command and the transport alone. -/
theorem o3Framing_encoderEntry {s : State} (hv : s.variant = .option3) (cmd : Byte) :
    o3Framing s.encoderEntry cmd =
      if cmd = s.params.memWriteCmd ∧ s.supports16 = true then .o3x16 s.params.hostEndian else .o3x8 := by
  have hparams : s.encoderEntry.params = s.params := (InCall.encoderEntry s).params
  have hwide : wideData s.encoderEntry.params s.encoderEntry.call cmd = true ↔
      cmd = s.params.memWriteCmd ∧ s.supports16 = true := wideData_sample_iff (s := s.enter .check) hv cmd
  rw [hparams] at hwide
  simp only [o3Framing, hparams, hwide]

/-! The plan of each route (R120, R144, R180). -/

theorem State.writePlan_n9 {s : State} (hv : s.variant = .option1) (h9 : s.supports9 = true) (cmd : Byte) :
    s.writePlan cmd =
      .write (.w9 [0#1 ++ cmd]) :: (transfers (.n9 true) s.maxXfer s.sourceBytes).map .write := by
  simp only [State.writePlan, hv, h9, if_true]

theorem State.writePlan_e8 {s : State} (hv : s.variant = .option1) (h9 : s.supports9 = false) (cmd : Byte) :
    s.writePlan cmd =
      .write (.w8 (commandFrame cmd)) :: (transfers .e8 s.maxXfer s.sourceBytes).map .write := by
  simp only [State.writePlan, hv, h9, Bool.false_eq_true, if_false]
  rfl

theorem State.writePlan_o3 {s : State} (hv : s.variant = .option3) (cmd : Byte) :
    s.writePlan cmd =
      .sel .cmd :: .write (.w8 [cmd]) ::
        (if s.argLen = 0 then []
         else .sel .data ::
          (transfers (if cmd = s.params.memWriteCmd ∧ s.supports16 = true then .o3x16 s.params.hostEndian else .o3x8)
            s.maxXfer s.sourceBytes).map .write) := by
  simp only [State.writePlan, hv]

/-- R233, R234: the encoder of a call that passed its checks plays the call's plan. -/
theorem encodeWrite_encoderEntry_plays {cmd : Byte} {s : State} (h : s.writePasses cmd) :
    Flow.Plays s.encoderEntry (s.writePlan cmd) (encodeWrite cmd s.encoderEntry) := by
  obtain ⟨-, hroute⟩ := h
  cases hv : s.variant with
  | option1 =>
    cases h9 : s.supports9 with
    | true =>
      have ht : 2 ≤ s.encoderEntry.call.t := by simpa [hv, h9] using hroute
      have hplays := encodeWrite_n9_plays cmd _ (State.encoderEntry_route_n9 hv h9) ht
      rw [State.encoderEntry_t, State.encoderEntry_sourceBytes] at hplays
      rw [State.writePlan_n9 hv h9]
      exact hplays
    | false =>
      have hplays := encodeWrite_e8_plays cmd _ (State.encoderEntry_route_e8 hv h9)
      rwa [State.encoderEntry_t, State.encoderEntry_sourceBytes, ← State.writePlan_e8 hv h9] at hplays
  | option3 =>
    have hplays := encodeWrite_o3_plays cmd _ (State.encoderEntry_route_o3 hv)
    rwa [State.encoderEntry_t, State.encoderEntry_sourceBytes, State.encoderEntry_argLen, o3Framing_encoderEntry hv,
      ← State.writePlan_o3 hv] at hplays

/-! How such a call ends. -/

theorem State.encoderEntry_xferAnswer_eq (s : State) : s.encoderEntry.xferAnswer = s.xferAnswer :=
  funext s.encoderEntry_xferAnswer

/-- A write call that passes its checks and gets its scratch is its encoder's flow (R233). -/
theorem exec_sendCommand_of_writePasses {cmd : Byte} {s : State} (hp : s.phase = .ready) (hc : s.classify cmd = false)
    (h : s.writePasses cmd) (ha : s.allocAnswer = true) :
    exec (.sendCommand cmd) s = (encodeWrite cmd s.encoderEntry).close :=
  exec_sendCommand_of_writeCheck_go hp hc h.1 (writeCheck_sample_of_writePasses (s := s.enter .check) h) ha

/-- It ends with the outcome of its plan, the events of which are all it adds. -/
theorem sendCommand_next_of_plan {cmd : Byte} {s : State} (hp : s.phase = .ready) (hc : s.classify cmd = false)
    (h : s.writePasses cmd) (ha : s.allocAnswer = true) {r : CallResult}
    (hr : (play s.xferAnswer 0 (s.writePlan cmd)).2.result = some r) :
    ∃ t, exec (.sendCommand cmd) s = .next t ∧ writeEnded s t (play s.xferAnswer 0 (s.writePlan cmd)).1 r := by
  have hplays := encodeWrite_encoderEntry_plays h
  rw [← s.encoderEntry_xferAnswer_eq] at hr ⊢
  obtain ⟨u, hclose, hplayed, -⟩ := hplays.close_next hr
  exact ⟨_, (exec_sendCommand_of_writePasses hp hc h ha).trans hclose,
    (InCall.encoderEntry s).writeEnded_of_played hplayed r⟩

/-- Where a transfer of its plan never returns, the machine stops (R280). -/
theorem sendCommand_blocked_of_plan {cmd : Byte} {s : State} (hp : s.phase = .ready) (hc : s.classify cmd = false)
    (h : s.writePasses cmd) (ha : s.allocAnswer = true) (hb : (play s.xferAnswer 0 (s.writePlan cmd)).2 = .blocked) :
    exec (.sendCommand cmd) s = .fault .transferHang := by
  have hplays := encodeWrite_encoderEntry_plays h
  rw [← s.encoderEntry_xferAnswer_eq] at hb
  exact (exec_sendCommand_of_writePasses hp hc h ha).trans (hplays.close_blocked hb)

/-- Settles O25: the plan of the call's route is played to its end, and the three endings are the three ways to close. -/
theorem writeCallRefinesPlan : Obligations.WriteCallRefinesPlan := by
  intro cmd s hp hc h ha
  cases he : (play s.xferAnswer 0 (s.writePlan cmd)).2 with
  | done => exact sendCommand_next_of_plan hp hc h ha (by rw [he]; rfl)
  | failed e => exact sendCommand_next_of_plan hp hc h ha (by rw [he]; rfl)
  | blocked => exact sendCommand_blocked_of_plan hp hc h ha he

/-! Write calls whose transfers all complete. -/

/-- The event of an action that completed. -/
def Action.completed : Action → Event
  | .sel l => .sel l
  | .write ws => okWrite ws

/-- Actions that are played to the end have all completed. -/
theorem play_events_of_done (ans : Nat → XferAnswer) : ∀ (as : List Action) (j : Nat),
    (play ans j as).2 = .done → (play ans j as).1 = as.map Action.completed
  | [], _, _ => rfl
  | .sel l :: as, j, h => by
    rw [play] at h ⊢
    rw [List.map_cons, ← play_events_of_done ans as j h]
    rfl
  | .write ws :: as, j, h => by
    cases ha : ans j with
    | ok raw =>
      simp only [play, ha] at h ⊢
      rw [List.map_cons, ← play_events_of_done ans as (j + 1) h]
      rfl
    | err e r => simp [play, ha] at h
    | never => simp [play, ha] at h

theorem writeCount_map_write (wss : List Words) : writeCount (wss.map .write) = wss.length := by
  induction wss with
  | nil => rfl
  | cons ws wss ih => rw [List.map_cons, writeCount, ih, List.length_cons]

theorem map_completed_map_write (wss : List Words) : (wss.map .write).map Action.completed = wss.map okWrite := by
  rw [List.map_map]
  rfl

/-- A write call that passes its checks and gets its scratch, all its transfers answered ok, does its whole plan. -/
theorem sendCommand_completes {cmd : Byte} {s : State} (hp : s.phase = .ready) (hc : s.classify cmd = false)
    (h : s.writePasses cmd) (ha : s.allocAnswer = true) (hall : transfersComplete s (writeCount (s.writePlan cmd))) :
    ∃ t, exec (.sendCommand cmd) s = .next t ∧
      writeEnded s t ((s.writePlan cmd).map Action.completed) (.ok none) := by
  have hdone : (play s.xferAnswer 0 (s.writePlan cmd)).2 = .done :=
    play_all_ok _ _ 0 fun i hi => by simpa using hall i hi
  rw [← play_events_of_done _ _ _ hdone]
  exact sendCommand_next_of_plan hp hc h ha (by rw [hdone]; rfl)

/-- Settles O22: the plan of the native route is the command word and the data transfers. -/
theorem sendNativeCompletes : Obligations.SendNativeCompletes := by
  intro cmd s hp hc hv h9 hf ht ha hall
  have hpass : s.writePasses cmd := ⟨hf, by simpa [hv, h9] using ht⟩
  have hcompletes := sendCommand_completes hp hc hpass ha
  rw [State.writePlan_n9 hv h9, writeCount, writeCount_map_write, Nat.add_comm, List.map_cons,
    map_completed_map_write] at hcompletes
  exact hcompletes hall

/-- Settles O23: the plan of the emulated route is the command frame and the data transfers. -/
theorem sendEmulatedCompletes : Obligations.SendEmulatedCompletes := by
  intro cmd s hp hc hv h9 hf ht ha hall
  have hpass : s.writePasses cmd := ⟨hf, by simpa [hv, h9] using ht⟩
  have hcompletes := sendCommand_completes hp hc hpass ha
  rw [State.writePlan_e8 hv h9, writeCount, writeCount_map_write, Nat.add_comm, List.map_cons,
    map_completed_map_write] at hcompletes
  exact hcompletes hall

/-- Settles O24: the plan of Option 3 is the command phase, and the data phase where there are parameters. -/
theorem sendOptionThreeCompletes : Obligations.SendOptionThreeCompletes := by
  rintro cmd s f hp hc hv hpass ha rfl hall
  have hcompletes := sendCommand_completes hp hc hpass ha
  rw [State.writePlan_o3 hv] at hcompletes
  by_cases hn : s.argLen = 0
  · rw [if_pos hn] at hcompletes ⊢
    exact hcompletes fun j hj => hall j (Nat.lt_of_lt_of_le hj (Nat.le_add_right _ _))
  · rw [if_neg hn] at hcompletes ⊢
    rw [writeCount, writeCount, writeCount, writeCount_map_write, Nat.add_comm, List.map_cons, List.map_cons, List.map_cons,
      map_completed_map_write] at hcompletes
    exact hcompletes hall

/-- The native command word is the command byte's value (R121). -/
theorem word9_false_eq_setWidth (cmd : Byte) : word9 false cmd = cmd.setWidth 9 := by
  apply BitVec.eq_of_getLsbD_eq
  intro i hi
  rw [word9, BitVec.getLsbD_setWidth, decide_eq_true hi, Bool.true_and]
  by_cases hlow : i < 8
  · exact getLsbD_append_low _ _ _ hlow
  · rw [getLsbD_append_high _ _ _ (Nat.le_of_not_lt hlow), cmd.getLsbD_of_ge i (Nat.le_of_not_lt hlow)]
    simp

/-- Settles O21: the one chunk of the command stream is the one word, which has the value of the command byte. -/
theorem nativeCommandStreamIsOneTransfer : Obligations.NativeCommandStreamIsOneTransfer := by
  intro cmd s raw ht hx
  have hplays := n9Encode_plays (Stream.command cmd) s
  have hone : transfers (.n9 (Stream.command cmd).c) s.call.t ((Stream.command cmd).slice s.mem 0 1) =
      [.w9 [word9 false cmd]] := transfers_native_command s.call.t cmd ht
  rw [show (Stream.command cmd).n = 1 from rfl, hone, Flow.Plays, List.map_singleton, play_write_ok hx] at hplays
  obtain ⟨t, hgo, hplayed⟩ := hplays
  exact ⟨t, hgo, by rw [hplayed.events, word9_false_eq_setWidth]⟩

end Sys2Proof.Machine
end

section
/-! PROOF. The emulated write calls as a function of what they depend on (R155), the direct call of the emulated encoder
(42_option1_emulated.md R148; log 29), and which refusals a SEND_COMMAND can end in. -/

namespace Sys2Proof.Machine

/-! Determinism (R33, R155). -/

/-- The plan of an emulated write (R144, R146). -/
def emulatedPlan (cmd : Byte) (t : Nat) (src : List Byte) : List Action :=
  .write (.w8 (commandFrame cmd)) :: (transfers .e8 t src).map .write

/-- The events and the outcome of an emulated write, as a function of the command, T, the source bytes, the allocation
outcome and the transfer answers; no outcome where it stays blocked. -/
def emulatedEnding (cmd : Byte) (t : Nat) (src : List Byte) (alloc : Bool) (ans : Nat → XferAnswer) :
    List Event × Option CallResult :=
  if t < 9 then ([], some (.err .invalidArgument))
  else if alloc then ((play ans 0 (emulatedPlan cmd t src)).1, (play ans 0 (emulatedPlan cmd t src)).2.result)
  else ([], some (.err .resourceExhausted))

/-- An emulated write that answers a next state ends as that function has it. -/
theorem sendCommand_emulatedEnding {cmd : Byte} {s t : State} (hp : s.phase = .ready) (hc : s.classify cmd = false)
    (hv : s.variant = .option1) (h9 : s.supports9 = false) (hf : s.fits s.argAddr s.argLen = true)
    (h : exec (.sendCommand cmd) s = .next t) :
    t.events = s.events ++ (emulatedEnding cmd s.maxXfer s.sourceBytes s.allocAnswer s.xferAnswer).1 ∧
      t.result = (emulatedEnding cmd s.maxXfer s.sourceBytes s.allocAnswer s.xferAnswer).2 := by
  have hended : ∀ {es r}, (∃ u, exec (.sendCommand cmd) s = .next u ∧ writeEnded s u es r) →
      t.events = s.events ++ es ∧ t.result = some r := by
    rintro es r ⟨u, hu, hresult, hevents, -⟩
    obtain rfl : t = u := by rw [hu] at h; cases h; rfl
    exact ⟨hevents, hresult⟩
  unfold emulatedEnding
  by_cases ht : s.maxXfer < 9
  · rw [if_pos ht]
    obtain ⟨u, hu, hwrite, -⟩ := emulatedUndersizedIsInvalid cmd s hp hc hf hv h9 ht
    exact hended ⟨u, hu, hwrite⟩
  have hpass : s.writePasses cmd := ⟨hf, by simpa [hv, h9] using Nat.le_of_not_lt ht⟩
  have hplan : s.writePlan cmd = emulatedPlan cmd s.maxXfer s.sourceBytes := State.writePlan_e8 hv h9 cmd
  rw [if_neg ht]
  cases ha : s.allocAnswer with
  | false =>
    obtain ⟨u, hu, hwrite, -⟩ := sendCommand_resourceExhausted hp hc hpass ha
    exact hended ⟨u, hu, hwrite⟩
  | true =>
    rw [if_pos rfl, ← hplan]
    cases he : (play s.xferAnswer 0 (s.writePlan cmd)).2 with
    | done => exact hended (sendCommand_next_of_plan hp hc hpass ha (by rw [he]; rfl))
    | failed e => exact hended (sendCommand_next_of_plan hp hc hpass ha (by rw [he]; rfl))
    | blocked => rw [sendCommand_blocked_of_plan hp hc hpass ha he] at h; cases h

/-- Settles O57: both calls end as one function of what they share. -/
theorem emulatedSendIsDeterministic : Obligations.EmulatedSendIsDeterministic := by
  intro cmd s1 s2 t1 t2 hs ht hsrc halloc hans h1 h2
  obtain ⟨hp1, hc1, hv1, hn1, hf1⟩ := hs s1 (by simp)
  obtain ⟨hp2, hc2, hv2, hn2, hf2⟩ := hs s2 (by simp)
  obtain ⟨hevents1, hresult1⟩ := sendCommand_emulatedEnding hp1 hc1 hv1 hn1 hf1 h1
  obtain ⟨hevents2, hresult2⟩ := sendCommand_emulatedEnding hp2 hc2 hv2 hn2 hf2 h2
  rw [← ht, ← hsrc, ← halloc, ← hans] at hevents2 hresult2
  exact ⟨hresult1.trans hresult2.symm, _, hevents1, hevents2⟩

/-! The direct call of the encoder (log 29). -/

/-- The state in which CHECK tests the stream of a direct call. -/
def State.e8Entry (s : State) : State := (s.enter .check).sampleE8

theorem InCall.e8Entry (s : State) : InCall s s.e8Entry := ((InCall.enter s .check).setIo _).setCall _

/-- The state in which the encoder takes a direct call over. -/
def State.e8StreamEntry (c : Bool) (s : State) : State :=
  s.e8Entry.granted.setSeq (if c then .dataPhase else .cmdPhase)

theorem InCall.e8StreamEntry (c : Bool) (s : State) : InCall s (s.e8StreamEntry c) :=
  (InCall.e8Entry s).granted.setSeq _

theorem State.e8StreamEntry_t (c : Bool) (s : State) : (s.e8StreamEntry c).call.t = s.maxXfer := rfl

theorem State.e8StreamEntry_xferAnswer (c : Bool) (s : State) : (s.e8StreamEntry c).xferAnswer = s.xferAnswer :=
  State.xferAnswer_eq_of_io rfl

/-- The plan of a direct call: the data stream's transfers, or the command frame. -/
def e8StreamPlan (c : Bool) (t : Nat) (l : List Byte) : List Action :=
  if c then (transfers .e8 t l).map .write else l.map fun b => .write (.w8 (List.replicate 8 0 ++ [b]))

/-- The encoder plays the plan of a stream it can encode (R144, R146). -/
theorem e8Encode_ofBytes_plays {c : Bool} {l : List Byte} (hl : c = true ∨ l.length = 1) (s : State) :
    Flow.Plays s (e8StreamPlan c s.call.t l) (e8Encode (Stream.ofBytes c l) s) := by
  cases c with
  | true => exact e8Encode_data_plays l s
  | false =>
    obtain ⟨b, rfl⟩ : ∃ b, l = [b] := List.length_eq_one_iff.mp (by simpa using hl)
    exact e8Encode_command_plays b s

/-- The checks of a stream that can be encoded test T only (R147, R148). -/
theorem e8Check_ofBytes {c : Bool} {l : List Byte} (hl : c = true ∨ l.length = 1) (s : State) :
    e8Check (Stream.ofBytes c l) s = if s.call.t < 9 then .err .invalidArgument s else .go s := by
  have hlen : ¬ (c = false ∧ l.length ≠ 1) := by
    rintro ⟨rfl, hne⟩
    exact hl.elim (by simp) hne
  exact if_neg hlen

/-- With T below 9 a direct call fails in CHECK (R147). -/
theorem execE8Stream_undersized {c : Bool} {l : List Byte} {s : State} (hl : c = true ∨ l.length = 1)
    (ht : s.maxXfer < 9) : execE8Stream c l s = .next (s.e8Entry.finish (.err .invalidArgument)) := by
  have hcheck : e8Check (Stream.ofBytes c l) (s.enter .check).sampleE8 = .err .invalidArgument s.e8Entry :=
    (e8Check_ofBytes hl _).trans (if_pos ht)
  rw [execE8Stream, hcheck]
  rfl

/-- A direct call that passes its checks and gets its scratch is the encoder's flow. -/
theorem execE8Stream_of_passes {c : Bool} {l : List Byte} {s : State} (hl : c = true ∨ l.length = 1)
    (ht : 9 ≤ s.maxXfer) (ha : s.allocAnswer = true) :
    execE8Stream c l s = (e8Encode (Stream.ofBytes c l) (s.e8StreamEntry c)).close := by
  have hcheck : e8Check (Stream.ofBytes c l) (s.enter .check).sampleE8 = .go s.e8Entry :=
    (e8Check_ofBytes hl _).trans (if_neg (Nat.not_lt.mpr ht))
  have halloc : s.e8Entry.allocate = .go s.e8Entry.granted := State.allocate_eq_granted ha
  rw [execE8Stream, hcheck, Flow.andThen_go, halloc, Flow.andThen_go]
  rfl

theorem endedInCheck_e8Entry_finish (s : State) (r : CallResult) : endedInCheck s (s.e8Entry.finish r) := ⟨rfl, rfl⟩

/-- Such a call plays its plan, and ends with the plan's outcome. -/
theorem e8StreamEntry_plays {c : Bool} {l : List Byte} (hl : c = true ∨ l.length = 1) (s : State) :
    Flow.Plays (s.e8StreamEntry c) (e8StreamPlan c s.maxXfer l)
      (e8Encode (Stream.ofBytes c l) (s.e8StreamEntry c)) := by
  have hplays := e8Encode_ofBytes_plays hl (s.e8StreamEntry c)
  rwa [State.e8StreamEntry_t] at hplays

theorem execE8Stream_next_of_plan {c : Bool} {l : List Byte} {s : State} (hl : c = true ∨ l.length = 1)
    (ht : 9 ≤ s.maxXfer) (ha : s.allocAnswer = true) {r : CallResult}
    (hr : (play s.xferAnswer 0 (e8StreamPlan c s.maxXfer l)).2.result = some r) :
    ∃ t, execE8Stream c l s = .next t ∧ writeEnded s t (play s.xferAnswer 0 (e8StreamPlan c s.maxXfer l)).1 r := by
  rw [← s.e8StreamEntry_xferAnswer c] at hr ⊢
  obtain ⟨u, hclose, hplayed, -⟩ := (e8StreamEntry_plays hl s).close_next hr
  exact ⟨_, (execE8Stream_of_passes hl ht ha).trans hclose, (InCall.e8StreamEntry c s).writeEnded_of_played hplayed r⟩

/-- Settles O60: the check of T, and then the plan, played to one of its three endings. -/
theorem directEncoderSendsStream : Obligations.DirectEncoderSendsStream := by
  intro c l s hl
  refine ⟨fun ht => ⟨_, execE8Stream_undersized hl ht, (InCall.e8Entry s).writeEnded _,
    endedInCheck_e8Entry_finish s _⟩, fun ht ha => ?_⟩
  intro plan
  have hplan : plan = e8StreamPlan c s.maxXfer l := rfl
  clear_value plan
  subst hplan
  cases he : (play s.xferAnswer 0 (e8StreamPlan c s.maxXfer l)).2 with
  | done => exact execE8Stream_next_of_plan hl ht ha (by rw [he]; rfl)
  | failed e => exact execE8Stream_next_of_plan hl ht ha (by rw [he]; rfl)
  | blocked =>
    rw [← s.e8StreamEntry_xferAnswer c] at he
    exact (execE8Stream_of_passes hl ht ha).trans ((e8StreamEntry_plays hl s).close_blocked he)

end Sys2Proof.Machine
end

section
/-! PROOF. An Option 3 read that passes its checks and gets its scratch (44_option3_read.md R200, R204 to R207): its two
transfers, and the four ways they can fail. -/

namespace Sys2Proof.Machine

/-! One transfer at any speed. -/

theorem State.send_ok {s : State} {raw : List Byte} (hx : s.xferAnswer 0 = .ok raw) (sp : Speed) (k : Nat)
    (ws : Words) : ∃ t, s.send sp k ws = .go t ∧ Played s [.xfer sp (.write ws) (.ok [])] t := by
  have hload : Played s [] (s.load k ws) := Played.setCall s rfl rfl rfl rfl
  have hsend : (s.load k ws).sendScratch sp = .go ((s.load k ws).noteXfer sp (.write ws) (.ok [])) :=
    State.xfer_ok (s := s.load k ws) sp _ hx
  refine ⟨((s.load k ws).noteXfer sp (.write ws) (.ok [])).advance, by rw [State.send, hsend]; rfl, ?_⟩
  exact (hload.trans (Played.noteWrite _ sp ws _)).trans (Played.setCall _ rfl rfl rfl rfl)

theorem State.send_err {s : State} {e : TransportError} {r : Nat} (hx : s.xferAnswer 0 = .err e r) (sp : Speed)
    (k : Nat) (ws : Words) :
    ∃ t, s.send sp k ws = .err (.busError e) t ∧ Played s [.xfer sp (.write ws) (.err e (min r ws.length))] t := by
  have hload : Played s [] (s.load k ws) := Played.setCall s rfl rfl rfl rfl
  have hsend : (s.load k ws).sendScratch sp =
      .err (.busError e) ((s.load k ws).noteXfer sp (.write ws) (.err e (min r ws.length))) :=
    State.xfer_err (s := s.load k ws) sp _ hx
  exact ⟨_, by rw [State.send, hsend]; rfl, hload.trans (Played.noteWrite _ sp ws _)⟩

theorem State.send_never {s : State} (hx : s.xferAnswer 0 = .never) (sp : Speed) (k : Nat) (ws : Words) :
    s.send sp k ws = .hang := by
  have hsend : (s.load k ws).sendScratch sp = .hang := State.xfer_never (s := s.load k ws) sp _ hx
  rw [State.send, hsend]
  rfl

theorem Played.noteRead (s : State) (sp : Speed) (k : Nat) (r : Reply) :
    Played s [.xfer sp (.read k) r] (s.noteXfer sp (.read k) r) := by
  cases r <;>
    exact ⟨⟨rfl, rfl, rfl, rfl, rfl, rfl, rfl, rfl, rfl, rfl, rfl, rfl, rfl⟩, rfl, rfl,
      by simp [xferCount, Feed.skip, Feed.tick]⟩

/-- A completed read transfer received as many bytes as it asked for: those of the answer, as far as it lists them
(R210, log 15). -/
theorem received_read (k : Nat) (raw : List Byte) (j : Nat) :
    (received (.read k) raw j).length = k ∧
      ∀ i, i < k → i < raw.length → (received (.read k) raw j).getD i 0 = raw.getD i 0 := by
  refine ⟨by simp [received], fun i hi hraw => ?_⟩
  simp [received, hi, hraw]

/-- A completed read transfer leaves what it received in RAW (R29). -/
theorem State.receive_ok {s : State} {raw : List Byte} (hx : s.xferAnswer 0 = .ok raw) (dst n k : Nat) :
    ∃ t got, s.receive dst n k = .go t ∧ Played s [.xfer .read (.read k) (.ok got)] t ∧ t.call.raw = got ∧
      got.length = k ∧ ∀ i, i < k → i < raw.length → got.getD i 0 = raw.getD i 0 := by
  have hcall : Played s [] (s.setCall { s.call with dir := .r, bpw := 8, src := dst, srcLen := n, chunk := k }) :=
    Played.setCall s rfl rfl rfl rfl
  obtain ⟨hlen, hget⟩ := received_read k raw s.io.xfer.count
  exact ⟨_, _, State.xfer_ok (s := s.setCall _) .read (.read k) hx, hcall.trans (Played.noteRead _ _ _ _), rfl, hlen, hget⟩

theorem State.receive_err {s : State} {e : TransportError} {r : Nat} (hx : s.xferAnswer 0 = .err e r) (dst n k : Nat) :
    ∃ t, s.receive dst n k = .err (.busError e) t ∧ Played s [.xfer .read (.read k) (.err e (min r k))] t := by
  have hcall : Played s [] (s.setCall { s.call with dir := .r, bpw := 8, src := dst, srcLen := n, chunk := k }) :=
    Played.setCall s rfl rfl rfl rfl
  exact ⟨_, State.xfer_err (s := s.setCall _) .read (.read k) hx, hcall.trans (Played.noteRead _ _ _ _)⟩

theorem State.receive_never {s : State} (hx : s.xferAnswer 0 = .never) (dst n k : Nat) : s.receive dst n k = .hang :=
  State.xfer_never (s := s.setCall _) .read (.read k) hx

/-! The two transfers of O3.READ, after its checks and its allocation. -/

/-- The command phase and the read phase (R200, R204). -/
def readTransfers (cmd : Byte) (dst n k : Nat) (s : State) : Flow :=
  (o3Command .read cmd (s.setSeq .cmdPhase)).andThen fun s1 =>
    ((s1.setSeq .readPhase).receive dst n k).andThen fun s2 => .go (s2.setSeq .decode)

/-- O3.READ that passes its checks and gets its scratch is those two. -/
theorem o3ReadRaw_eq_readTransfers {cmd : Byte} {n : Nat} {s : State} (hgo : o3ReadCheck cmd n s = .go s)
    (ha : s.allocAnswer = true) (dst : Nat) :
    o3ReadRaw cmd dst n s = readTransfers cmd dst n (rawLength (isDcCmd s.params cmd) n) s.granted := by
  rw [o3ReadRaw, hgo, Flow.andThen_go, State.allocate_eq_granted ha, Flow.andThen_go]
  rfl

/-- The command phase, its transfer answered ok, is the select of CMD and the command byte at READ speed. -/
theorem o3Command_read_ok {s : State} {raw : List Byte} (hx : s.xferAnswer 0 = .ok raw) (cmd : Byte) :
    ∃ t, o3Command .read cmd (s.setSeq .cmdPhase) = .go t ∧
      Played s [.sel .cmd, .xfer .read (.write (.w8 [cmd])) (.ok [])] t := by
  obtain ⟨t, hgo, hplayed⟩ := State.send_ok (s := (s.setSeq .cmdPhase).select .cmd) hx .read 1 (.w8 [cmd])
  exact ⟨t, hgo, ((Played.setSeq s .cmdPhase).trans (Played.select _ .cmd)).trans hplayed⟩

/-- After it the next answer is the second one. -/
theorem Played.xferAnswer_zero_of_command {s t : State} {sp : Speed} {p : Payload} {r : Reply} {l : Level}
    (h : Played s [.sel l, .xfer sp p r] t) : t.xferAnswer 0 = s.xferAnswer 1 := h.xferAnswer 0

theorem readTransfers_ok {s : State} {r0 raw : List Byte} (h0 : s.xferAnswer 0 = .ok r0)
    (h1 : s.xferAnswer 1 = .ok raw) (cmd : Byte) (dst n k : Nat) :
    ∃ t got, readTransfers cmd dst n k s = .go t ∧ Played s (readEvents cmd got) t ∧ t.call.raw = got ∧
      got.length = k ∧ ∀ i, i < k → i < raw.length → got.getD i 0 = raw.getD i 0 := by
  obtain ⟨u, hcmd, hplayed⟩ := o3Command_read_ok h0 cmd
  have hx : (u.setSeq .readPhase).xferAnswer 0 = .ok raw := hplayed.xferAnswer_zero_of_command.trans h1
  obtain ⟨v, got, hread, hplayed', hraw, rfl, hget⟩ := State.receive_ok hx dst n k
  refine ⟨v.setSeq .decode, got, ?_, ?_, hraw, rfl, hget⟩
  · rw [readTransfers, hcmd, Flow.andThen_go, hread, Flow.andThen_go]
  · exact ((hplayed.trans (Played.setSeq u .readPhase)).trans hplayed').trans (Played.setSeq v .decode)

theorem readTransfers_command_err {s : State} {e : TransportError} {r : Nat} (h0 : s.xferAnswer 0 = .err e r)
    (cmd : Byte) (dst n k : Nat) :
    ∃ t, readTransfers cmd dst n k s = .err (.busError e) t ∧
      Played s [.sel .cmd, .xfer .read (.write (.w8 [cmd])) (.err e (min r 1))] t := by
  obtain ⟨t, herr, hplayed⟩ := State.send_err (s := (s.setSeq .cmdPhase).select .cmd) h0 .read 1 (.w8 [cmd])
  refine ⟨t, ?_, ((Played.setSeq s .cmdPhase).trans (Played.select _ .cmd)).trans hplayed⟩
  rw [readTransfers, o3Command, herr, Flow.andThen_err]

theorem readTransfers_read_err {s : State} {r0 : List Byte} {e : TransportError} {r : Nat}
    (h0 : s.xferAnswer 0 = .ok r0) (h1 : s.xferAnswer 1 = .err e r) (cmd : Byte) (dst n k : Nat) :
    ∃ t, readTransfers cmd dst n k s = .err (.busError e) t ∧
      Played s
        [.sel .cmd, .xfer .read (.write (.w8 [cmd])) (.ok []), .xfer .read (.read k) (.err e (min r k))] t := by
  obtain ⟨u, hcmd, hplayed⟩ := o3Command_read_ok h0 cmd
  have hx : (u.setSeq .readPhase).xferAnswer 0 = .err e r := hplayed.xferAnswer_zero_of_command.trans h1
  obtain ⟨t, herr, hplayed'⟩ := State.receive_err hx dst n k
  refine ⟨t, ?_, (hplayed.trans (Played.setSeq u .readPhase)).trans hplayed'⟩
  rw [readTransfers, hcmd, Flow.andThen_go, herr, Flow.andThen_err]

theorem readTransfers_command_never {s : State} (h0 : s.xferAnswer 0 = .never) (cmd : Byte) (dst n k : Nat) :
    readTransfers cmd dst n k s = .hang := by
  rw [readTransfers, o3Command, State.send_never (s := (s.setSeq .cmdPhase).select .cmd) h0, Flow.andThen_hang]

theorem readTransfers_read_never {s : State} {r0 : List Byte} (h0 : s.xferAnswer 0 = .ok r0)
    (h1 : s.xferAnswer 1 = .never) (cmd : Byte) (dst n k : Nat) : readTransfers cmd dst n k s = .hang := by
  obtain ⟨u, hcmd, hplayed⟩ := o3Command_read_ok h0 cmd
  have hx : (u.setSeq .readPhase).xferAnswer 0 = .never := hplayed.xferAnswer_zero_of_command.trans h1
  rw [readTransfers, hcmd, Flow.andThen_go, State.receive_never hx, Flow.andThen_hang]

end Sys2Proof.Machine
end

section
/-! PROOF. READ_COMMAND on Option 3 (44_option3_read.md R200 to R206; 60_exceptions.md R273, R274, R280): what a read that
passes its checks and gets its scratch stores, and how it fails. -/

namespace Sys2Proof.Machine

/-- A read that every check of READ_COMMAND lets through, and whose scratch is allocated. -/
structure State.ReadPasses (cmd : Byte) (s : State) : Prop where
  ready : s.phase = .ready
  classified : s.classify cmd = true
  option3 : s.variant = .option3
  length : if isDcCmd s.params cmd then s.argLen = 3 ∨ s.argLen = 4 else 0 < s.argLen
  fits : s.fits s.argAddr s.argLen = true
  scratch : s.allocAnswer = true

/-- The state in which such a call goes to its command phase. -/
def State.readEntry (s : State) : State := (s.enter .check).granted

theorem InCall.readEntry (s : State) : InCall s s.readEntry := (InCall.enter s .check).granted

theorem State.readEntry_xferAnswer (s : State) (j : Nat) : s.readEntry.xferAnswer j = s.xferAnswer j :=
  congrFun (State.xferAnswer_eq_of_io rfl) j

/-- Its flow is the two transfers. -/
theorem readFlow_of_readPasses {cmd : Byte} {s : State} (h : s.ReadPasses cmd) :
    readFlow cmd s.argAddr s.argLen true (s.enter .check) =
      readTransfers cmd s.argAddr s.argLen (rawLength (isDcCmd s.params cmd) s.argLen) s.readEntry :=
  (readFlow_option3 (s := s.enter .check) h.ready h.classified h.option3 _ _).trans
    (o3ReadRaw_eq_readTransfers (o3ReadCheck_go (s := s.enter .check) h.classified h.length) h.scratch _)

/-! How a read call ends, by how its flow does. -/

theorem exec_readCommand_of_go {cmd : Byte} {s u : State} (hf : s.fits s.argAddr s.argLen = true)
    (h : readFlow cmd s.argAddr s.argLen true (s.enter .check) = .go u) :
    exec (.readCommand cmd) s =
      .next ((u.storeOut s.argAddr (u.readOut cmd s.argLen)).finish (.ok none)) := by
  rw [exec_readCommand, readCall, State.enter_argAddr, State.enter_argLen, State.enter_fits, hf, h]
  rfl

theorem exec_readCommand_of_err {cmd : Byte} {s u : State} {k : ErrKind} (hf : s.fits s.argAddr s.argLen = true)
    (h : readFlow cmd s.argAddr s.argLen true (s.enter .check) = .err k u) :
    exec (.readCommand cmd) s = .next ((u.havoc s.argAddr s.argLen).finish (.err k)) := by
  rw [exec_readCommand, readCall, State.enter_argAddr, State.enter_argLen, State.enter_fits, hf, h]
  rfl

theorem exec_readCommand_of_hang {cmd : Byte} {s : State} (hf : s.fits s.argAddr s.argLen = true)
    (h : readFlow cmd s.argAddr s.argLen true (s.enter .check) = .hang) :
    exec (.readCommand cmd) s = .fault .transferHang := by
  rw [exec_readCommand, readCall, State.enter_argAddr, State.enter_argLen, State.enter_fits, hf, h]
  rfl

/-- A read call ends as a write call does, but for its destination and the answers used. -/
theorem writeEnded.readEnded {s t v : State} {es : List Event} {r : CallResult} {dst n : Nat}
    (h : writeEnded s (t.finish r) es r) (hv : v = (t.setMem v.mem).setIo v.io) (hmem : memSameOutside dst n t v) :
    readEnded dst n s (v.finish r) es r := by
  obtain ⟨hresult, hevents, hsel, hsame, hconfig, hhost, hrest⟩ := h
  have hmem' : memSameOutside dst n s (v.finish r) := fun a ha => (hmem a ha).trans (congrArg (·.read a) hsame)
  rw [hv] at hmem' ⊢
  exact ⟨hresult, hevents, hsel, hmem', hconfig, hhost, hrest⟩

/-- A failed read ends with its events, and changes memory in its destination only (R57). -/
theorem readCommand_ends_err {cmd : Byte} {s u : State} {k : ErrKind} {es : List Event} (hwf : s.mem.wf = true)
    (hpass : s.ReadPasses cmd) (h : readFlow cmd s.argAddr s.argLen true (s.enter .check) = .err k u)
    (hp : Played s.readEntry es u) :
    ∃ t, exec (.readCommand cmd) s = .next t ∧ readEnded s.argAddr s.argLen s t es (.err k) := by
  have hended := (InCall.readEntry s).writeEnded_of_played hp (.err k)
  have hmem : u.mem = s.mem := hp.kept.mem.trans (InCall.readEntry s).mem
  exact ⟨_, exec_readCommand_of_err hpass.fits h,
    hended.readEnded rfl (State.havoc_memSameOutside (hmem ▸ hwf) s.argAddr s.argLen)⟩

/-- A read whose two transfers complete stores what they decode to. -/
theorem readCommand_ends_ok {cmd : Byte} {s : State} {r0 raw : List Byte} (hwf : s.mem.wf = true)
    (hpass : s.ReadPasses cmd) (h0 : s.xferAnswer 0 = .ok r0) (h1 : s.xferAnswer 1 = .ok raw) :
    ∃ t got, exec (.readCommand cmd) s = .next t ∧ got.length = rawLength (isDcCmd s.params cmd) s.argLen ∧
      (∀ i, i < rawLength (isDcCmd s.params cmd) s.argLen → i < raw.length → got.getD i 0 = raw.getD i 0) ∧
      readEnded s.argAddr s.argLen s t (readEvents cmd got) (.ok none) ∧
      t.mem.readBytes s.argAddr s.argLen = readDecode (isDcCmd s.params cmd) s.argLen got := by
  obtain ⟨u, got, hgo, hplayed, hraw, hlen, hget⟩ := readTransfers_ok ((s.readEntry_xferAnswer 0).trans h0)
    ((s.readEntry_xferAnswer 1).trans h1) cmd s.argAddr s.argLen (rawLength (isDcCmd s.params cmd) s.argLen)
  have hended := (InCall.readEntry s).writeEnded_of_played hplayed (.ok none)
  have hmem : u.mem = s.mem := hplayed.kept.mem.trans (InCall.readEntry s).mem
  have hout : u.readOut cmd s.argLen = readDecode (isDcCmd s.params cmd) s.argLen got := by
    rw [State.readOut, hraw, hplayed.kept.params, (InCall.readEntry s).params]
  have hn : (u.readOut cmd s.argLen).length = s.argLen := by
    rw [hout]
    cases hdc : isDcCmd s.params cmd with
    | true => exact length_dummyClockDecode _ _
    | false => exact hlen.trans (by rw [hdc]; rfl)
  have houtside := State.storeOut_memSameOutside (hmem ▸ hwf) s.argAddr (u.readOut cmd s.argLen)
  have hstored := Memory.readBytes_writeBytes (hmem ▸ hwf) s.argAddr (u.readOut cmd s.argLen)
  rw [hn] at houtside hstored
  exact ⟨_, got, exec_readCommand_of_go hpass.fits ((readFlow_of_readPasses hpass).trans hgo), hlen, hget,
    hended.readEnded rfl houtside, hstored.trans hout⟩

/-- Settles O33: outside `P_DCCMDS` the raw bytes are the result bytes. -/
theorem readCopiesBytes : Obligations.ReadCopiesBytes := by
  intro cmd s r0 raw hp hwf hc hv hdc hn hf ha h0 h1
  have hpass : s.ReadPasses cmd := ⟨hp, hc, hv, by rwa [hdc], hf, ha⟩
  have hends := readCommand_ends_ok hwf hpass h0 h1
  rw [hdc] at hends
  exact hends

/-- Settles O34: a command of `P_DCCMDS` asks for one raw byte more, and its result bytes are shifted by one bit. -/
theorem dummyClockReadShifts : Obligations.DummyClockReadShifts := by
  intro cmd s r0 raw hp hwf hc hv hcmd hn hf ha h0 h1
  have hdc : isDcCmd s.params cmd = true := (isDcCmd_eq_true_iff _ _).mpr hcmd
  have hpass : s.ReadPasses cmd := ⟨hp, hc, hv, by rwa [hdc], hf, ha⟩
  obtain ⟨t, got, hexec, hlen, hget, hended, hstored⟩ := readCommand_ends_ok hwf hpass h0 h1
  rw [hdc] at hlen hget hstored
  refine ⟨t, got, hexec, hlen, hget, hended, fun i hi => ?_⟩
  rw [← Memory.readBytes_getD t.mem s.argAddr s.argLen i hi, hstored, ← shiftLeft_or_shiftRight]
  simp [readDecode, dummyClockDecode, hi]

/-- Settles O38: the command transfer, or the read transfer after it, fails or never returns. -/
theorem readBusErrors : Obligations.ReadBusErrors := by
  intro cmd s hp hwf hc hv hn hf ha n
  have hpass : s.ReadPasses cmd := ⟨hp, hc, hv, hn, hf, ha⟩
  have hflow := readFlow_of_readPasses hpass
  refine ⟨fun e r h0 => ?_, fun r0 e r h0 h1 => ?_, fun h0 => ?_, fun r0 h0 h1 => ?_⟩
  · obtain ⟨u, herr, hplayed⟩ := readTransfers_command_err ((s.readEntry_xferAnswer 0).trans h0) cmd _ _ _
    exact readCommand_ends_err hwf hpass (hflow.trans herr) hplayed
  · obtain ⟨u, herr, hplayed⟩ := readTransfers_read_err ((s.readEntry_xferAnswer 0).trans h0)
      ((s.readEntry_xferAnswer 1).trans h1) cmd _ _ _
    exact readCommand_ends_err hwf hpass (hflow.trans herr) hplayed
  · exact exec_readCommand_of_hang hf (hflow.trans
      (readTransfers_command_never ((s.readEntry_xferAnswer 0).trans h0) cmd _ _ _))
  · exact exec_readCommand_of_hang hf (hflow.trans
      (readTransfers_read_never ((s.readEntry_xferAnswer 0).trans h0) ((s.readEntry_xferAnswer 1).trans h1) cmd _ _ _))

end Sys2Proof.Machine
end

section
/-! PROOF. IS_DISPLAY_ON (45_dispatcher.md R238): its read of one byte, and what becomes of its errors. -/

namespace Sys2Proof.Machine

/-- The flow of the power-mode read, up to its decode. -/
def State.powerModeFlow (s : State) : Flow := readFlow s.params.powerModeCmd 0 1 true (s.enter .check)

/-! How IS_DISPLAY_ON ends, by how that flow does. -/

theorem exec_isDisplayOn_of_go {s u : State} (h : s.powerModeFlow = .go u) :
    exec .isDisplayOn s =
      .next (u.finish (.ok (some (powerModeOn u.params ((u.readOut s.params.powerModeCmd 1).getD 0 0))))) := by
  rw [State.powerModeFlow] at h
  simp only [exec, execIsDisplayOn, h, Flow.andThen_go]
  rfl

theorem exec_isDisplayOn_of_err {s u : State} {k : ErrKind} (h : s.powerModeFlow = .err k u) :
    exec .isDisplayOn s = .next (u.finish (.ok (some false))) := by
  rw [State.powerModeFlow] at h
  simp only [exec, execIsDisplayOn, h, Flow.andThen_err]
  rfl

theorem exec_isDisplayOn_of_refuse {s u : State} {r : Reason} (h : s.powerModeFlow = .refuse r u) :
    exec .isDisplayOn s = .next (u.finish (.refused r)) := by
  rw [State.powerModeFlow] at h
  simp only [exec, execIsDisplayOn, h, Flow.andThen_refuse]
  rfl

theorem exec_isDisplayOn_of_hang {s : State} (h : s.powerModeFlow = .hang) :
    exec .isDisplayOn s = .fault .transferHang := by
  rw [State.powerModeFlow] at h
  simp only [exec, execIsDisplayOn, h, Flow.andThen_hang]

/-- Settles O41: each way the flow can stand ends in ok, or in a refusal, or not at all. -/
theorem displayOnNeverFails : Obligations.DisplayOnNeverFails := by
  intro s t k h
  cases hflow : s.powerModeFlow with
  | go u => rw [exec_isDisplayOn_of_go hflow] at h; cases h; simp
  | err e u => rw [exec_isDisplayOn_of_err hflow] at h; cases h; simp
  | refuse r u => rw [exec_isDisplayOn_of_refuse hflow] at h; cases h; simp
  | hang => rw [exec_isDisplayOn_of_hang hflow] at h; cases h

/-! The read of the power-mode byte. -/

/-- On Option 3, for a command of the read set, the flow is O3.READ of one byte. -/
theorem State.powerModeFlow_option3 {s : State} (hp : s.phase = .ready) (hv : s.variant = .option3)
    (hc : s.classify s.params.powerModeCmd = true) :
    s.powerModeFlow = o3ReadRaw s.params.powerModeCmd 0 1 (s.enter .check) :=
  readFlow_option3 (s := s.enter .check) hp hc hv 0 1

/-- Outside `P_DCCMDS` one byte is a length its checks let through. -/
theorem o3ReadCheck_powerMode {s : State} (hc : s.classify s.params.powerModeCmd = true)
    (hdc : isDcCmd s.params s.params.powerModeCmd = false) :
    o3ReadCheck s.params.powerModeCmd 1 (s.enter .check) = .go (s.enter .check) :=
  o3ReadCheck_go (s := s.enter .check) hc (by rw [State.enter_params, hdc]; exact Nat.one_pos)

/-- With its scratch allocated the flow is then the two transfers of a one-byte read. -/
theorem State.powerModeFlow_eq_readTransfers {s : State} (hp : s.phase = .ready) (hv : s.variant = .option3)
    (hc : s.classify s.params.powerModeCmd = true) (hdc : isDcCmd s.params s.params.powerModeCmd = false)
    (ha : s.allocAnswer = true) : s.powerModeFlow = readTransfers s.params.powerModeCmd 0 1 1 s.readEntry := by
  rw [State.powerModeFlow_option3 hp hv hc,
    o3ReadRaw_eq_readTransfers (s := s.enter .check) (o3ReadCheck_powerMode hc hdc) ha, State.enter_params, hdc]
  rfl

/-- Settles O39: the one raw byte is PMBUF, and its masked value is compared. -/
theorem displayOnComparesMaskedByte : Obligations.DisplayOnComparesMaskedByte := by
  intro s r0 raw b hp hv hc hdc ha h0 h1
  obtain ⟨u, got, hgo, hplayed, hraw, hlen, hget⟩ := readTransfers_ok ((s.readEntry_xferAnswer 0).trans h0)
    ((s.readEntry_xferAnswer 1).trans h1) s.params.powerModeCmd 0 1 1
  have hparams : u.params = s.params := hplayed.kept.params.trans (InCall.readEntry s).params
  obtain ⟨x, rfl⟩ := List.length_eq_one_iff.mp hlen
  obtain rfl : x = b := hget 0 Nat.one_pos (by simp)
  have hout : u.readOut s.params.powerModeCmd 1 = [x] := by
    rw [State.readOut, hparams, hdc, hraw]
    rfl
  refine ⟨_, exec_isDisplayOn_of_go ((State.powerModeFlow_eq_readTransfers hp hv hc hdc ha).trans hgo), ?_⟩
  rw [hout, hparams]
  exact (InCall.readEntry s).writeEnded_of_played hplayed _

/-! Its errors. -/

/-- The causes that stop the flow before the bus. -/
theorem State.powerModeFlow_err_of_cause {s : State} (hp : s.phase = .ready)
    (hcause : s.variant = .option1 ∨ s.classify s.params.powerModeCmd = false ∨
      isDcCmd s.params s.params.powerModeCmd = true ∨ s.allocAnswer = false) :
    ∃ k u, s.powerModeFlow = .err k u ∧ InCall s u := by
  have hentered := InCall.enter s .check
  cases hv : s.variant with
  | option1 => exact ⟨_, _, readFlow_unsupported (s := s.enter .check) hp (.inr hv) 0 1, hentered⟩
  | option3 =>
  cases hc : s.classify s.params.powerModeCmd with
  | false => exact ⟨_, _, readFlow_unsupported (s := s.enter .check) hp (.inl hc) 0 1, hentered⟩
  | true =>
  rw [State.powerModeFlow_option3 hp hv hc]
  cases hdc : isDcCmd s.params s.params.powerModeCmd with
  | true =>
    have hcheck := (o3ReadCheck_dummyClock (s := s.enter .check) hc hdc 1).trans (if_neg (by decide))
    exact ⟨_, _, o3ReadRaw_of_o3ReadCheck_err hcheck 0, hentered⟩
  | false =>
    have ha : s.allocAnswer = false := by simpa [hv, hc, hdc] using hcause
    exact ⟨_, _, o3ReadRaw_of_allocAnswer_false (s := s.enter .check) (o3ReadCheck_powerMode hc hdc) ha 0,
      (hentered.setSeq _).setIo _⟩

/-- A failing transfer stops it after the select of CMD, with host memory as it was. -/
theorem readTransfers_err {s : State} {e : TransportError} {r : Nat}
    (h : s.xferAnswer 0 = .err e r ∨ ∃ r0, s.xferAnswer 0 = .ok r0 ∧ s.xferAnswer 1 = .err e r)
    (cmd : Byte) (dst n k : Nat) :
    ∃ u es, readTransfers cmd dst n k s = .err (.busError e) u ∧ Played s es u ∧ selAfter s.sel es = .cmd := by
  rcases h with h0 | ⟨r0, h0, h1⟩
  · obtain ⟨u, herr, hplayed⟩ := readTransfers_command_err h0 cmd dst n k
    exact ⟨u, _, herr, hplayed, rfl⟩
  · obtain ⟨u, herr, hplayed⟩ := readTransfers_read_err h0 h1 cmd dst n k
    exact ⟨u, _, herr, hplayed, rfl⟩

theorem readTransfers_never {s : State}
    (h : s.xferAnswer 0 = .never ∨ ∃ r0, s.xferAnswer 0 = .ok r0 ∧ s.xferAnswer 1 = .never)
    (cmd : Byte) (dst n k : Nat) : readTransfers cmd dst n k s = .hang := by
  rcases h with h0 | ⟨r0, h0, h1⟩
  · exact readTransfers_command_never h0 cmd dst n k
  · exact readTransfers_read_never h0 h1 cmd dst n k

/-- Settles O40: an error before the bus, an error on it, and a transfer that never returns. -/
theorem displayOnErrorsAreFalse : Obligations.DisplayOnErrorsAreFalse := by
  intro s hp
  refine ⟨fun hcause => ?_, fun hv hc hdc ha e r hx => ?_, fun hv hc hdc ha hx => ?_⟩
  · obtain ⟨k, u, herr, hu⟩ := State.powerModeFlow_err_of_cause hp hcause
    exact ⟨_, exec_isDisplayOn_of_err herr, hu.writeEnded _⟩
  · simp only [← s.readEntry_xferAnswer] at hx
    obtain ⟨u, es, herr, hplayed, hsel⟩ := readTransfers_err hx s.params.powerModeCmd 0 1 1
    exact ⟨_, exec_isDisplayOn_of_err ((State.powerModeFlow_eq_readTransfers hp hv hc hdc ha).trans herr), rfl,
      hplayed.kept.mem.trans (InCall.readEntry s).mem, hplayed.sel.trans hsel⟩
  · simp only [← s.readEntry_xferAnswer] at hx
    exact exec_isDisplayOn_of_hang ((State.powerModeFlow_eq_readTransfers hp hv hc hdc ha).trans
      (readTransfers_never hx s.params.powerModeCmd 0 1 1))

end Sys2Proof.Machine
end

section
/-! PROOF. Which refusals a SEND_COMMAND can end in (42_option1_emulated.md R148). -/

namespace Sys2Proof.Machine

/-! Refusals of flows. -/

/-- A flow that is no refusal. -/
def Flow.NotRefused (f : Flow) : Prop := ∀ r u, f ≠ .refuse r u

theorem Flow.NotRefused.andThen {f : Flow} {k : State → Flow} (hf : f.NotRefused) (hk : ∀ s, (k s).NotRefused) :
    (f.andThen k).NotRefused := by
  cases f with
  | go s => exact hk s
  | err e s => exact fun _ _ h => by cases h
  | refuse r s => exact absurd rfl (hf r s)
  | hang => exact fun _ _ h => by cases h

theorem State.go_notRefused (s : State) : (Flow.go s).NotRefused := fun _ _ h => by cases h

/-- The transport answers with an error or not at all, never with a refusal. -/
theorem State.xfer_notRefused (s : State) (sp : Speed) (p : Payload) : (s.xfer sp p).NotRefused := by
  intro r u h
  unfold State.xfer at h
  split at h <;> cases h

theorem State.allocate_notRefused (s : State) : s.allocate.NotRefused := by
  intro r u h
  cases ha : s.allocAnswer with
  | true => rw [State.allocate_eq_granted ha] at h; cases h
  | false => rw [State.allocate_eq_allocDenied ha] at h; cases h

theorem readTransfers_notRefused (cmd : Byte) (dst n k : Nat) (s : State) :
    (readTransfers cmd dst n k s).NotRefused :=
  Flow.NotRefused.andThen ((State.xfer_notRefused _ _ _).andThen fun _ => State.go_notRefused _) fun _ =>
    (State.xfer_notRefused _ _ _).andThen fun _ => State.go_notRefused _

/-- What plays actions is no refusal. -/
theorem Flow.Plays.notRefused {s : State} {as : List Action} {f : Flow} (h : f.Plays s as) : f.NotRefused := by
  unfold Flow.Plays at h
  rintro r u rfl
  split at h
  · obtain ⟨_, heq, -⟩ := h; cases heq
  · obtain ⟨_, heq, -⟩ := h; cases heq
  · cases h

/-- No encoder refuses what the checks let through. -/
theorem encodeWrite_notRefused (cmd : Byte) (s : State) : (encodeWrite cmd s).NotRefused := by
  cases hr : s.call.route with
  | n9 =>
    unfold encodeWrite
    rw [hr]
    exact (n9Encode_plays _ _).notRefused.andThen fun u => (n9Data_plays u).notRefused
  | e8 => exact (encodeWrite_e8_plays cmd s hr).notRefused
  | o3 => exact (encodeWrite_o3_plays cmd s hr).notRefused

/-! Refusals of host calls. -/

/-- A write call is refused for its buffer's address, or for half a 16-bit word (R233). -/
theorem writeCall_refuse {cmd : Byte} {s u : State} {r : Reason} (h : writeCall cmd s = .refuse r u) :
    r = .addrRange ∨ r = .oddLength16 := by
  unfold writeCall at h
  split at h
  · rcases writeCheck_cases cmd s.argLen s.sample with hcheck | hcheck | hcheck <;> rw [hcheck] at h
    · exact absurd h ((State.allocate_notRefused _).andThen (fun u => encodeWrite_notRefused cmd u) _ _)
    · cases h
    · cases h; exact .inr rfl
  · cases h; exact .inl rfl

/-- O3.READ is refused for its length only (R209). -/
theorem o3ReadRaw_refuse {cmd : Byte} {dst n : Nat} {s u : State} {r : Reason}
    (h : o3ReadRaw cmd dst n s = .refuse r u) : r = .zeroRead := by
  rcases o3ReadCheck_cases cmd n s with hcheck | hcheck | hcheck | hcheck
  · cases ha : s.allocAnswer with
    | true =>
      rw [o3ReadRaw_eq_readTransfers hcheck ha] at h
      exact absurd h (readTransfers_notRefused _ _ _ _ _ _ _)
    | false => rw [o3ReadRaw_of_allocAnswer_false hcheck ha] at h; cases h
  · rw [o3ReadRaw_of_o3ReadCheck_err hcheck] at h; cases h
  · rw [o3ReadRaw_of_o3ReadCheck_err hcheck] at h; cases h
  · rw [o3ReadRaw_of_o3ReadCheck_refuse hcheck] at h; cases h; rfl

/-- A read call is refused outside READY, for its buffer's address, or for its length (R236). -/
theorem readFlow_refuse {cmd : Byte} {dst n : Nat} {b : Bool} {s u : State} {r : Reason}
    (h : readFlow cmd dst n b s = .refuse r u) : r = .notReady ∨ r = .addrRange ∨ r = .zeroRead := by
  unfold readFlow at h
  split_ifs at h
  · cases h; exact .inl rfl
  · cases h; exact .inr (.inl rfl)
  · exact .inr (.inr (o3ReadRaw_refuse h))

/-- A refusal that a write call's end reports is its flow's. -/
theorem Flow.close_refused {f : Flow} {t : State} {r : Reason} (h : f.close = .next t)
    (hr : t.result = some (.refused r)) : ∃ u, f = .refuse r u := by
  rcases Flow.close_next h with ⟨u, rfl, rfl⟩ | ⟨k, u, rfl, rfl⟩ | ⟨r', u, rfl, rfl⟩ <;> cases hr
  exact ⟨u, rfl⟩

theorem Flow.endRead_refused {f : Flow} {dst n : Nat} {t : State} {r : Reason} (h : f.endRead dst n = .next t)
    (hr : t.result = some (.refused r)) : ∃ u, f = .refuse r u := by
  rcases Flow.endRead_next h with ⟨u, rfl, rfl⟩ | ⟨k, u, rfl, rfl⟩ | ⟨r', u, rfl, rfl⟩ <;> cases hr
  exact ⟨u, rfl⟩

/-- Work that only updates the state refuses nothing of its own. -/
theorem Flow.refuse_of_andThen_go {f : Flow} {g : State → State} {r : Reason} {u : State}
    (h : (f.andThen fun s => .go (g s)) = .refuse r u) : f = .refuse r u := by
  cases f with
  | refuse => exact h
  | go | err | hang => cases h

/-- No SEND_COMMAND ends in CmdLength: the dispatcher's command streams have one byte (R234). -/
theorem sendCommand_not_cmdLength {cmd : Byte} {s t : State} (h : exec (.sendCommand cmd) s = .next t) :
    t.result ≠ some (.refused .cmdLength) := by
  intro hr
  by_cases hp : s.phase = .ready
  · cases hc : s.classify cmd with
    | false =>
      rw [exec_sendCommand_write hp hc] at h
      obtain ⟨u, hu⟩ := Flow.close_refused h hr
      rcases writeCall_refuse hu with h' | h' <;> cases h'
    | true =>
      rw [exec_sendCommand_read hp hc, exec_readCommand] at h
      obtain ⟨u, hu⟩ := Flow.endRead_refused h hr
      rcases readFlow_refuse (Flow.refuse_of_andThen_go hu) with h' | h' | h' <;> cases h'
  · rw [exec_sendCommand_notReady hp] at h
    cases h
    cases hr

/-- A command stream of a length other than 1 is refused in CHECK (R148). -/
theorem execE8Stream_cmdLength {l : List Byte} (hl : l.length ≠ 1) (s : State) :
    execE8Stream false l s = .next (s.e8Entry.finish (.refused .cmdLength)) := by
  have hcheck : e8Check (Stream.ofBytes false l) (s.enter .check).sampleE8 = .refuse .cmdLength s.e8Entry :=
    if_pos ⟨rfl, hl⟩
  rw [execE8Stream, hcheck]
  rfl

/-- Settles O58: the check of a direct call, and the refusals of the two flows of SEND_COMMAND. -/
theorem commandStreamLengthIsChecked : Obligations.CommandStreamLengthIsChecked :=
  ⟨fun _ s hl => ⟨_, execE8Stream_cmdLength hl s, (InCall.e8Entry s).writeEnded _, endedInCheck_e8Entry_finish s _⟩,
    fun _ _ _ => sendCommand_not_cmdLength⟩

end Sys2Proof.Machine
end

section
/-! PROOF. The stages of a call: what its work keeps while SEQ moves forward (10_state.md R30), and how every operation
ends (60_exceptions.md R273, R278). -/

namespace Sys2Proof.Machine

/-- A property of the states of a call, for each state of SEQ the call may have reached, that its work keeps: SEQ moves
forward only, and of the answers from outside only the allocator's and the transport's are drawn. Selects are left out:
not every call makes them. -/
structure KeptByStages (P : Seq → State → Prop) : Prop where
  setCall : ∀ q s c, P q s → P q (s.setCall c)
  noteXfer : ∀ q s sp p r, P q s → P q (s.noteXfer sp p r)
  setMem : ∀ q s m, P q s → P q (s.setMem m)
  havoc : ∀ q s dst n, P q s → P q (s.havoc dst n)
  drawAlloc : ∀ q s, P q s → P q (s.setIo { s.io with alloc := s.io.alloc.tick })
  setSeq : ∀ q q' s, q.order < q'.order → P q s → P q' (s.setSeq q')
  mono : ∀ q q' s, q.order ≤ q'.order → P q s → P q' s

/-- A property of the states of a call that driving the select line keeps. -/
def KeptBySelects (P : Seq → State → Prop) : Prop := ∀ q s l, P q s → P q (s.select l)

/-- Only Option 3 has the route that drives the select line (R25, R31). -/
theorem State.option3_of_sample_route_o3 {s : State} (h : s.sample.call.route = .o3) : s.variant = .option3 := by
  cases hv : s.variant with
  | option3 => rfl
  | option1 =>
    rw [State.sample_option1 hv] at h
    cases h9 : s.supports9 <;> simp [h9] at h

@[simp] theorem State.granted_route (s : State) : s.granted.call.route = s.call.route := rfl

namespace KeptByStages

variable {P : Seq → State → Prop} (hP : KeptByStages P) {s t : State}
include hP

theorem send {q : Seq} (hs : P q s) (sp : Speed) (k : Nat) (ws : Words) : (s.send sp k ws).All (P q) :=
  State.send_all (hP.noteXfer q) (hP.setCall q) hs sp k ws

theorem sendStream {q : Seq} (hs : P q s) (f : Framing) (st : Stream) : (sendStream f st s).All (P q) :=
  sendStream_all (hP.noteXfer q) (hP.setCall q) f st hs

theorem allocDenied (hs : P .check s) : P .alloc s.allocDenied :=
  hP.drawAlloc _ _ (hP.setSeq _ _ s (by decide) hs)

theorem granted (hs : P .check s) : P .alloc s.granted := hP.setCall _ _ _ (hP.allocDenied hs)

/-! Writes. -/

theorem encodeWrite (hsel : s.call.route = .o3 → KeptBySelects P) (hs : P .alloc s) (cmd : Byte) :
    (encodeWrite cmd s).All (P .dataPhase) := by
  have hcmd : P .cmdPhase (s.setSeq .cmdPhase) := hP.setSeq _ _ s (by decide) hs
  have hdata : ∀ u, P .cmdPhase u → P .dataPhase (u.setSeq .dataPhase) := fun u => hP.setSeq _ _ u (by decide)
  have hend : ∀ u, P .cmdPhase u → P .dataPhase u := fun u => hP.mono _ _ u (by decide)
  unfold Machine.encodeWrite
  split
  next =>
    refine (hP.sendStream hcmd _ _).andThen (fun u hu => ?_) hend
    split
    · exact hend u hu
    · exact hP.sendStream (hdata u hu) _ _
  next =>
    refine (hP.send hcmd .default _ _ : (e8Encode (Stream.command cmd) _).All _).andThen (fun u hu => ?_) hend
    split
    · exact hend u hu
    · exact hP.sendStream (hdata u hu) _ _
  next hr =>
    refine (hP.send (hsel hr _ _ .cmd hcmd) .default _ _ : (o3Command .default cmd _).All _).andThen
      (fun u hu => ?_) hend
    split
    · exact hend u hu
    · exact hP.sendStream (hsel hr _ _ .data (hdata u hu)) _ _

theorem writeCall (hsel : s.variant = .option3 → KeptBySelects P)
    (hrefused : s.fits s.argAddr s.argLen = false → P .check s) (hsample : P .check s.sample) (cmd : Byte) :
    (writeCall cmd s).All (P .dataPhase) := by
  unfold Machine.writeCall
  split
  · rcases writeCheck_cases cmd s.argLen s.sample with hcheck | hcheck | hcheck <;> rw [hcheck]
    · cases ha : s.sample.allocAnswer with
      | true =>
        rw [Flow.andThen_go, State.allocate_eq_granted ha]
        exact hP.encodeWrite (s := s.sample.granted)
          (fun hr => hsel (State.option3_of_sample_route_o3 ((State.granted_route _).symm.trans hr)))
          (hP.granted hsample) cmd
      | false =>
        rw [Flow.andThen_go, State.allocate_eq_allocDenied ha]
        exact hP.mono _ _ _ (by decide) (hP.allocDenied hsample)
    · exact hP.mono _ _ _ (by decide) hsample
    · exact hP.mono _ _ _ (by decide) hsample
  next hf => exact hP.mono _ _ _ (by decide) (hrefused (Bool.eq_false_iff.mpr hf))

/-! Reads. -/

theorem readTransfers (hsel : KeptBySelects P) (hs : P .alloc s) (cmd : Byte) (dst n k : Nat) :
    (readTransfers cmd dst n k s).All (P .decode) := by
  refine (hP.send (hsel _ _ .cmd (hP.setSeq _ .cmdPhase s (by decide) hs)) .read _ _ :
    (o3Command .read cmd _).All (P .cmdPhase)).andThen (fun u hu => ?_) fun u => hP.mono _ _ u (by decide)
  exact (State.receive_all (hP.noteXfer _) (hP.setCall _) (hP.setSeq _ .readPhase u (by decide) hu) dst n k).andThen
    (fun v hv => hP.setSeq _ _ v (by decide) hv) fun v => hP.mono _ _ v (by decide)

theorem o3ReadRaw (hsel : KeptBySelects P) (hs : P .check s) (cmd : Byte) (dst n : Nat) :
    (o3ReadRaw cmd dst n s).All (P .decode) := by
  have hend : P .decode s := hP.mono _ _ s (by decide) hs
  rcases o3ReadCheck_cases cmd n s with hcheck | hcheck | hcheck | hcheck
  · cases ha : s.allocAnswer with
    | true =>
      rw [o3ReadRaw_eq_readTransfers hcheck ha]
      exact hP.readTransfers hsel (hP.granted hs) _ _ _ _
    | false =>
      rw [o3ReadRaw_of_allocAnswer_false hcheck ha]
      exact hP.mono _ _ _ (by decide) (hP.allocDenied hs)
  · rw [o3ReadRaw_of_o3ReadCheck_err hcheck]; exact hend
  · rw [o3ReadRaw_of_o3ReadCheck_err hcheck]; exact hend
  · rw [o3ReadRaw_of_o3ReadCheck_refuse hcheck]; exact hend

theorem readFlow (hsel : s.variant = .option3 → KeptBySelects P) (hs : P .check s) (cmd : Byte) (dst n : Nat)
    (inSpace : Bool) : (readFlow cmd dst n inSpace s).All (P .decode) := by
  have hend : P .decode s := hP.mono _ _ s (by decide) hs
  unfold Machine.readFlow
  split
  · exact hend
  split
  · exact hend
  split
  · exact hend
  cases hv : s.variant with
  | option1 => exact hend
  | option3 => exact hP.o3ReadRaw (hsel hv) hs cmd dst n

/-! Ends of calls: an outcome is reported in a state the call has reached. -/

omit hP in
theorem close {q : Seq} {f : Flow} (hf : f.All (P q)) (h : f.close = .next t) : ∃ u r, P q u ∧ t = u.finish r := by
  rcases Flow.close_next h with ⟨u, rfl, rfl⟩ | ⟨k, u, rfl, rfl⟩ | ⟨r, u, rfl, rfl⟩
  · exact ⟨u, _, hf, rfl⟩
  · exact ⟨u, _, hf, rfl⟩
  · exact ⟨u, _, hf, rfl⟩

theorem endRead {q : Seq} {f : Flow} {dst n : Nat} (hf : f.All (P q)) (h : f.endRead dst n = .next t) :
    ∃ u r, P q u ∧ t = u.finish r := by
  rcases Flow.endRead_next h with ⟨u, rfl, rfl⟩ | ⟨k, u, rfl, rfl⟩ | ⟨r, u, rfl, rfl⟩
  · exact ⟨u, _, hf, rfl⟩
  · exact ⟨_, _, hP.havoc _ _ dst n hf, rfl⟩
  · exact ⟨_, _, hP.havoc _ _ dst n hf, rfl⟩

theorem readCommand (hsel : s.variant = .option3 → KeptBySelects P) (hs : P .check (s.enter .check)) {cmd : Byte}
    (h : exec (.readCommand cmd) s = .next t) : ∃ u r, P .decode u ∧ t = u.finish r :=
  hP.endRead ((hP.readFlow (s := s.enter .check) hsel hs cmd _ _ _).andThen_go fun u hu => hP.setMem _ u _ hu) h

theorem isDisplayOn (hsel : s.variant = .option3 → KeptBySelects P) (hs : P .check (s.enter .check))
    (h : exec .isDisplayOn s = .next t) : ∃ u r, P .decode u ∧ t = u.finish r := by
  have hall : s.powerModeFlow.All (P .decode) := hP.readFlow (s := s.enter .check) hsel hs _ 0 1 true
  cases hflow : s.powerModeFlow with
  | go u => rw [hflow] at hall; rw [exec_isDisplayOn_of_go hflow] at h; cases h; exact ⟨u, _, hall, rfl⟩
  | err e u => rw [hflow] at hall; rw [exec_isDisplayOn_of_err hflow] at h; cases h; exact ⟨u, _, hall, rfl⟩
  | refuse r u => rw [hflow] at hall; rw [exec_isDisplayOn_of_refuse hflow] at h; cases h; exact ⟨u, _, hall, rfl⟩
  | hang => rw [exec_isDisplayOn_of_hang hflow] at h; cases h

theorem sendCommand (hsel : s.variant = .option3 → KeptBySelects P) (hs : P .check (s.enter .check))
    (hsample : P .check (s.enter .check).sample) {cmd : Byte} (h : exec (.sendCommand cmd) s = .next t) :
    ∃ u r, P .decode u ∧ t = u.finish r := by
  have hend : ∀ q u, q.order ≤ Seq.decode.order → P q u → P .decode u := fun q u => hP.mono q _ u
  by_cases hp : s.phase = .ready
  · cases hc : s.classify cmd with
    | true => exact hP.readCommand hsel hs ((exec_sendCommand_read hp hc).symm.trans h)
    | false =>
      rw [exec_sendCommand_write hp hc] at h
      obtain ⟨u, r, hu, ht⟩ := close (hP.writeCall (s := s.enter .check) hsel (fun _ => hs) hsample cmd) h
      exact ⟨u, r, hend _ u (by decide) hu, ht⟩
  · rw [exec_sendCommand_notReady hp] at h
    cases h
    exact ⟨_, _, hend _ _ (by decide) hs, rfl⟩

theorem configure (hs : P .check (s.enter .check)) (hconfig : P .check ((s.enter .check).configureWith s.args))
    (h : exec .configure s = .next t) : ∃ u r, P .decode u ∧ t = u.finish r := by
  by_cases hp : s.phase = .unconfigured
  · cases hb : badReadSet s.params s.args.readset with
    | true =>
      rw [exec_configure_of_badReadSet hp hb] at h
      cases h
      exact ⟨_, _, hP.mono _ _ _ (by decide) hs, rfl⟩
    | false =>
      rw [exec_configure_ok hp hb] at h
      cases h
      exact ⟨_, _, hP.mono _ _ _ (by decide) hconfig, rfl⟩
  · rw [exec_configure_of_configured hp] at h
    cases h
    exact ⟨_, _, hP.mono _ _ _ (by decide) hs, rfl⟩

/-- Every host operation that answers a next state ends in a state that its work has reached. -/
theorem execHostOp {i : Instr} (hi : isHostOp i = true) (hsel : s.variant = .option3 → KeptBySelects P)
    (hs : P .check (s.enter .check)) (hsample : P .check (s.enter .check).sample)
    (hconfig : P .check ((s.enter .check).configureWith s.args)) (h : exec i s = .next t) :
    ∃ u r, P .decode u ∧ t = u.finish r := by
  cases i <;> simp only [isHostOp, Bool.false_eq_true] at hi
  case configure => exact hP.configure hs hconfig h
  case sendCommand => exact hP.sendCommand hsel hs hsample h
  case readCommand => exact hP.readCommand hsel hs h
  case isDisplayOn => exact hP.isDisplayOn hsel hs h
  case reservedOp op c =>
    rw [exec_reservedOp] at h
    cases h
    exact ⟨_, _, hP.mono _ _ _ (by decide) hs, rfl⟩

end KeptByStages

end Sys2Proof.Machine
end

section
/-! PROOF. What an operation may store in host memory (20_memory.md R50, R57). -/

namespace Sys2Proof.Machine

/-- Memory in `t` is that of `s` after at most `n` bytes have been stored at `dst`, none beyond the address space. -/
def StoredWithin (dst n : Nat) (s t : State) : Prop :=
  ∃ l, t.mem = s.mem.writeBytes dst l ∧ l.length ≤ n ∧ dst + l.length ≤ 2 ^ s.params.addrW

theorem State.argAddr_lt (s : State) : s.argAddr < 2 ^ s.params.addrW := Nat.mod_lt _ (Nat.two_pow_pos _)

/-- A buffer that passes the address check ends inside the address space (R51). -/
theorem State.argAddr_add_le_of_fits {s : State} {n : Nat} (hf : s.fits s.argAddr n = true) :
    s.argAddr + n ≤ 2 ^ s.params.addrW := by
  have haddr := s.argAddr_lt
  by_contra hout
  have hfalse := (s.fits_eq_false_iff s.argAddr n).mpr ⟨by omega, Nat.lt_of_not_le hout⟩
  rw [hf] at hfalse
  cases hfalse

/-- Nothing stored. -/
theorem StoredWithin.of_mem_eq {s t : State} (h : t.mem = s.mem) (n : Nat) : StoredWithin s.argAddr n s t :=
  ⟨[], h, Nat.zero_le n, s.argAddr_lt.le⟩

/-- The bytes a failed read leaves are clipped to the address space (R57). -/
theorem StoredWithin.havoc {s u : State} (hmem : u.mem = s.mem) (hparams : u.params = s.params) (n : Nat) :
    StoredWithin s.argAddr n s (u.havoc s.argAddr n) := by
  have haddr := s.argAddr_lt
  refine ⟨_, by rw [State.havoc_mem, hmem], ?_, ?_⟩
  · rw [List.length_map, List.length_range]
    exact Nat.min_le_left _ _
  · rw [List.length_map, List.length_range, hparams]
    omega

theorem StoredWithin.memSameOutside {dst n : Nat} {s t : State} (h : StoredWithin dst n s t) (hwf : s.mem.wf = true) :
    memSameOutside dst n s t := by
  obtain ⟨l, hmem, hlen, -⟩ := h
  intro a ha
  rw [hmem, Memory.read_writeBytes l dst a hwf, if_neg (by omega)]

theorem StoredWithin.wf {dst n : Nat} {s t : State} (h : StoredWithin dst n s t) (hwf : s.mem.wf = true) :
    t.mem.wf = true := by
  obtain ⟨l, hmem, -, -⟩ := h
  exact hmem ▸ Memory.writeBytes_wf l dst hwf

theorem StoredWithin.inSpace {dst n : Nat} {s t : State} (h : StoredWithin dst n s t)
    (hin : s.mem.inSpace s.params.addrW = true) : t.mem.inSpace s.params.addrW = true := by
  obtain ⟨l, hmem, -, hspace⟩ := h
  exact hmem ▸ Memory.writeBytes_inSpace l dst hin fun _ => hspace

end Sys2Proof.Machine
end

section
/-! PROOF. What every operation leaves as it ends: SEQ and its trail (10_state.md R30; 60_exceptions.md R273, R278), the
select line (R31), and the transport's capabilities that it sampled (R26, R232). -/

namespace Sys2Proof.Machine

/-! The four kinds of rows. -/

/-- Every row is a host operation, a leaf write, a read format or CLASSIFY. -/
theorem instr_kinds (i : Instr) :
    isHostOp i = true ∨ (∃ plan, leafPlan i = some plan) ∨ (i.port = .rd ∨ i.port = .rddc) ∨ ∃ cmd, i = .classify cmd := by
  cases i with
  | configure | sendCommand | readCommand | isDisplayOn | reservedOp => exact .inl rfl
  | classify cmd => exact .inr (.inr (.inr ⟨cmd, rfl⟩))
  | o3Rd8 => exact .inr (.inr (.inl (.inl rfl)))
  | o3Rddc3 | o3Rddc4 => exact .inr (.inr (.inl (.inr rfl)))
  | n9Cmd | n9Data | e8Cmd | e8Full | e8Part1 | e8Part2 | e8Part3 | e8Part4 | e8Part5 | e8Part6 | e8Part7
  | o3Cmd | o3Data8 | o3Data16 => exact .inr (.inl ⟨_, rfl⟩)

/-- A leaf write that answers a next state ends where its one transfer left it. -/
theorem exec_leaf_ends {i : Instr} {plan : List Action} (hplan : leafPlan i = some plan) {s t : State}
    (h : exec i s = .next t) :
    ∃ u r es, t = u.finish r ∧ Played (s.enter (leafPhase i)) es u ∧ u.trail = [leafPhase i] := by
  obtain ⟨f, hexec, hplays, htrail⟩ := exec_leaf hplan s
  rw [hexec] at h
  cases he : (play (s.enter (leafPhase i)).xferAnswer 0 plan).2.result with
  | some r =>
    obtain ⟨u, hclose, hplayed, hu⟩ := hplays.close_next he
    rw [hclose] at h
    cases h
    exact ⟨u, r, _, rfl, hplayed, hu _ htrail⟩
  | none =>
    have hb : (play (s.enter (leafPhase i)).xferAnswer 0 plan).2 = .blocked := by
      revert he
      cases (play (s.enter (leafPhase i)).xferAnswer 0 plan).2 <;> simp [Ending.result]
    rw [hplays.close_blocked hb] at h
    cases h

/-- A read format by itself ends in DECODE, with bytes stored in its destination only. -/
theorem exec_readFormat_ends {i : Instr} (hi : i.port = .rd ∨ i.port = .rddc) {s t : State} (h : exec i s = .next t) :
    ∃ u r, t = State.finish r u ∧ u.trail = [.decode] ∧ StoredWithin s.argAddr (destLength i s) s u := by
  obtain ⟨raw, dc, hexec, hlen⟩ := exec_readFormat hi s
  rw [hexec] at h
  cases hf : s.fits s.argAddr (destLength i s) with
  | true =>
    rw [decodeInto_of_fits hf] at h
    cases h
    exact ⟨_, _, rfl, rfl, readDecode dc (destLength i s) raw, rfl, hlen.le,
      hlen.symm ▸ State.argAddr_add_le_of_fits hf⟩
  | false =>
    rw [decodeInto_of_not_fits hf] at h
    cases h
    exact ⟨_, _, rfl, rfl, StoredWithin.havoc (u := (s.enter .decode).keepRaw raw) rfl rfl _⟩

/-! SEQ and its trail. -/

/-- The trail of a call that has reached `q`: SEQ states in rising order, none before CHECK and none after `q`. -/
def Ascending (q : Seq) (u : State) : Prop :=
  (u.trail.map Seq.order).Pairwise (· < ·) ∧ ∀ p ∈ u.trail, 0 < p.order ∧ p.order ≤ q.order

theorem Ascending.of_trail_eq_singleton {q p : Seq} {u : State} (h : u.trail = [p]) (hp : 0 < p.order)
    (hq : p.order ≤ q.order) : Ascending q u := by
  rw [Ascending, h]
  exact ⟨List.pairwise_singleton _ _, List.forall_mem_singleton.mpr ⟨hp, hq⟩⟩

theorem Ascending.setSeq {q q' : Seq} {u : State} (h : Ascending q u) (hlt : q.order < q'.order) :
    Ascending q' (u.setSeq q') := by
  obtain ⟨hsorted, hmem⟩ := h
  refine ⟨?_, ?_⟩
  · rw [State.setSeq_trail, List.map_append, List.pairwise_append]
    refine ⟨hsorted, List.pairwise_singleton _ _, ?_⟩
    simp only [List.forall_mem_map, List.map_singleton, List.mem_singleton, forall_eq]
    exact fun p hp => Nat.lt_of_le_of_lt (hmem p hp).2 hlt
  · rw [State.setSeq_trail, List.forall_mem_append, List.forall_mem_singleton]
    exact ⟨fun p hp => ⟨(hmem p hp).1, (hmem p hp).2.trans hlt.le⟩, by omega, le_rfl⟩

theorem Ascending.mono {q q' : Seq} {u : State} (h : Ascending q u) (hle : q.order ≤ q'.order) : Ascending q' u :=
  ⟨h.1, fun p hp => ⟨(h.2 p hp).1, (h.2 p hp).2.trans hle⟩⟩

theorem keptByStages_ascending : KeptByStages Ascending where
  setCall := fun _ _ _ h => h
  noteXfer := fun _ _ _ _ _ h => h
  setMem := fun _ _ _ h => h
  havoc := fun _ _ _ _ h => h
  drawAlloc := fun _ _ h => h
  setSeq := fun _ _ _ hlt h => h.setSeq hlt
  mono := fun _ _ _ hle h => h.mono hle

theorem leafPhase_order (i : Instr) : 0 < (leafPhase i).order ∧ (leafPhase i).order ≤ Seq.decode.order := by
  unfold leafPhase
  split <;> decide

/-- Every operation but CLASSIFY that answers a next state ends with one outcome, in a state SEQ reached in order. -/
theorem exec_ends {i : Instr} {s t : State} (hi : ∀ cmd, i ≠ .classify cmd) (h : exec i s = .next t) :
    ∃ u r, Ascending .decode u ∧ t = u.finish r := by
  have henter : Ascending .check (s.enter .check) := .of_trail_eq_singleton rfl (by decide) le_rfl
  rcases instr_kinds i with hhost | ⟨plan, hplan⟩ | hformat | ⟨cmd, rfl⟩
  · have hsample : Ascending .check (s.enter .check).sample := by
      obtain ⟨io, c, hsample⟩ := (s.enter .check).sample_eq_setIo_setCall
      rw [hsample]
      exact henter
    exact keptByStages_ascending.execHostOp hhost (fun _ _ _ _ h => h) henter hsample henter h
  · obtain ⟨u, r, es, ht, -, htrail⟩ := exec_leaf_ends hplan h
    obtain ⟨hpos, hle⟩ := leafPhase_order i
    exact ⟨u, r, .of_trail_eq_singleton htrail hpos hle, ht⟩
  · obtain ⟨u, r, ht, htrail, -⟩ := exec_readFormat_ends hformat h
    exact ⟨u, r, .of_trail_eq_singleton htrail (by decide) le_rfl, ht⟩
  · exact absurd rfl (hi cmd)

/-- Settles O44: the end of a call writes SEQ, the per-call state and the outcome; CLASSIFY writes the outcome only. -/
theorem operationsEndAtRest : Obligations.OperationsEndAtRest := by
  intro i s t h
  by_cases hi : ∃ cmd, i = .classify cmd
  · obtain ⟨cmd, rfl⟩ := hi
    cases h
    exact ⟨⟨_, rfl⟩, fun hne => absurd rfl (hne cmd), fun _ => ⟨rfl, rfl⟩⟩
  · obtain ⟨u, r, -, rfl⟩ := exec_ends (fun cmd hcmd => hi ⟨cmd, hcmd⟩) h
    exact ⟨⟨r, rfl⟩, fun _ => ⟨rfl, rfl⟩, fun hcmd => absurd hcmd hi⟩

/-- Settles O46: the trail up to the end is ascending and stays below DONE, which is its last state. -/
theorem sequencerMovesForward : Obligations.SequencerMovesForward := by
  intro i s t hi h
  obtain ⟨u, r, hu, rfl⟩ := exec_ends hi h
  obtain ⟨hsorted, hmem⟩ : Ascending .done (u.setSeq .done) := hu.setSeq (by decide)
  refine ⟨hsorted, by simp, fun hidle => ?_⟩
  exact absurd (hmem .idle hidle).1 (by decide)

/-! The select line under Option 1. -/

/-- No select event has been added to those of `s`, and the select line is where it was. -/
def Unselected (s u : State) : Prop :=
  u.sel = s.sel ∧ ∃ es, u.events = s.events ++ es ∧ ∀ l, Event.sel l ∉ es

theorem Unselected.refl (s : State) : Unselected s s := ⟨rfl, [], (List.append_nil _).symm, by simp⟩

theorem keptByStages_unselected (s : State) : KeptByStages fun _ => Unselected s where
  setCall := fun _ _ _ h => h
  noteXfer := fun _ u sp p r ⟨hsel, es, hevents, hnone⟩ => by
    refine ⟨hsel, es ++ [.xfer sp p r], ?_, fun l hl => ?_⟩
    · rw [State.noteXfer_events, hevents, List.append_assoc]
    · exact hnone l (by simpa using hl)
  setMem := fun _ _ _ h => h
  havoc := fun _ _ _ _ h => h
  drawAlloc := fun _ _ h => h
  setSeq := fun _ _ _ _ h => h
  mono := fun _ _ _ _ h => h

/-- Settles O47: the stages of a host operation keep it, and on Option 1 none of them is on the route that selects. -/
theorem optionOneNeverSelects : Obligations.OptionOneNeverSelects := by
  intro i s t hi hv h
  have hsample : Unselected s (s.enter .check).sample := by
    obtain ⟨io, c, hsample⟩ := (s.enter .check).sample_eq_setIo_setCall
    rw [hsample]
    exact Unselected.refl s
  have hsel : s.variant = .option3 → KeptBySelects fun _ => Unselected s := fun h3 => by rw [hv] at h3; cases h3
  obtain ⟨u, r, hu, rfl⟩ := (keptByStages_unselected s).execHostOp hi hsel (Unselected.refl s) hsample
    (Unselected.refl s) h
  exact hu

/-! What a call samples of the transport. -/

/-- The three capability queries are used up as far as in `s`. -/
def SampledAs (s u : State) : Prop :=
  u.io.maxXfer = s.io.maxXfer ∧ u.io.supports9 = s.io.supports9 ∧ u.io.supports16 = s.io.supports16

theorem keptByStages_sampledAs (s : State) : KeptByStages fun _ => SampledAs s where
  setCall := fun _ _ _ h => h
  noteXfer := fun _ _ _ _ _ h => h
  setMem := fun _ _ _ h => h
  havoc := fun _ _ _ _ h => h
  drawAlloc := fun _ _ h => h
  setSeq := fun _ _ _ _ h => h
  mono := fun _ _ _ _ h => h

theorem keptBySelects_sampledAs (s : State) : KeptBySelects fun _ => SampledAs s := fun _ _ _ h => h

theorem Feed.tick_eq_skip {α : Type} (f : Feed α) : f.tick = f.skip 1 := by
  rw [← Feed.skip_zero f.tick, Feed.skip_tick]

/-- Sampling uses one answer of `MaxXfer`, and one of the capability its VARIANT asks for (R232). -/
theorem State.sample_io (s : State) :
    s.sample.io.maxXfer = s.io.maxXfer.skip 1 ∧
      s.sample.io.supports9 = (if s.variant = .option1 then s.io.supports9.skip 1 else s.io.supports9) ∧
      s.sample.io.supports16 = (if s.variant = .option3 then s.io.supports16.skip 1 else s.io.supports16) := by
  cases hv : s.variant with
  | option1 => rw [State.sample_option1 hv]; simp [Feed.tick_eq_skip]
  | option3 => rw [State.sample_option3 hv]; simp [Feed.tick_eq_skip]

/-- Settles O48: past its address check a write call has sampled once, and no later work of a call samples again. -/
theorem transportIsSampledOncePerWrite : Obligations.TransportIsSampledOncePerWrite := by
  refine ⟨fun cmd s t hp hc hf h => ?_, fun cmd s t h => ?_⟩
  · rw [exec_sendCommand_write hp hc] at h
    have hnot : (s.enter .check).fits (s.enter .check).argAddr (s.enter .check).argLen = false →
        SampledAs (s.enter .check).sample (s.enter .check) := fun hfalse => by
      rw [State.enter_argAddr, State.enter_argLen, State.enter_fits, hf] at hfalse
      cases hfalse
    have hall := (keptByStages_sampledAs (s.enter .check).sample).writeCall (s := s.enter .check)
      (fun _ => keptBySelects_sampledAs _) hnot ⟨rfl, rfl, rfl⟩ cmd
    obtain ⟨u, r, ⟨hmax, h9, h16⟩, rfl⟩ :=
      KeptByStages.close (P := fun _ => SampledAs (s.enter .check).sample) (q := .dataPhase) hall h
    obtain ⟨hmax', h9', h16'⟩ := (s.enter .check).sample_io
    exact ⟨hmax.trans hmax', h9.trans h9', h16.trans h16'⟩
  · obtain ⟨u, r, hu, rfl⟩ := (keptByStages_sampledAs s).readCommand (fun _ => keptBySelects_sampledAs s)
      ⟨rfl, rfl, rfl⟩ h
    exact hu

end Sys2Proof.Machine
end

section
/-! PROOF. What every operation does to host memory (20_memory.md R50, R57), the configuration and the host's side
(10_state.md R20 to R23), and the events (R31, R60). -/

namespace Sys2Proof.Machine

/-! CONFIGURE, said once. -/

/-- CONFIGURE ends where it was entered, refused or with the new configuration written (R230). -/
theorem exec_configure_cases {s t : State} (h : exec .configure s = .next t) :
    (∃ r, t = (s.enter .check).finish r) ∨
      s.phase = .unconfigured ∧ badReadSet s.params s.args.readset = false ∧
        t = ((s.enter .check).configureWith s.args).finish (.ok none) := by
  by_cases hp : s.phase = .unconfigured
  · cases hb : badReadSet s.params s.args.readset with
    | true => rw [exec_configure_of_badReadSet hp hb] at h; cases h; exact .inl ⟨_, rfl⟩
    | false => rw [exec_configure_ok hp hb] at h; cases h; exact .inr ⟨hp, rfl, rfl⟩
  · rw [exec_configure_of_configured hp] at h
    cases h
    exact .inl ⟨_, rfl⟩

/-- What the updates of a call and CONFIGURE's write keep, every operation keeps. -/
theorem KeptByUpdates.exec_all {P : State → Prop} (hP : KeptByUpdates P)
    (hconfig : ∀ s a, P s → P (s.configureWith a)) {i : Instr} {s t : State} (hs : P s)
    (h : Machine.exec i s = .next t) : P t := by
  by_cases hi : i = .configure
  · subst hi
    rcases exec_configure_cases h with ⟨r, rfl⟩ | ⟨-, -, rfl⟩
    · exact hP.finish _ _ (hP.enter s _ hs)
    · exact hP.finish _ _ (hconfig _ _ (hP.enter s _ hs))
  · exact hP.exec hi hs h

/-! The host's side. -/

theorem keptByUpdates_sameHost (s : State) : KeptByUpdates (sameHost s) where
  enter := fun _ _ h => h
  finish := fun _ _ h => h
  setSeq := fun _ _ h => h
  setCall := fun _ _ h => h
  setIo := fun _ _ h => h
  setMem := fun _ _ h => h
  select := fun _ _ h => h
  noteXfer := fun _ _ _ _ h => h
  report := fun _ _ h => h

/-- Settles O43: no update of a call writes the configuration, and none, CONFIGURE's included, the host's side. -/
theorem onlyConfigureChangesConfiguration : Obligations.OnlyConfigureChangesConfiguration :=
  fun _ s _ h => ⟨fun hi => exec_sameConfig hi h, (keptByUpdates_sameHost s).exec_all (fun _ _ h => h) ⟨rfl, rfl⟩ h⟩

/-! The events. -/

/-- Some events have been added to those of `s`, and the select line is where they left it. -/
def EventsAdded (s u : State) : Prop := ∃ es, u.events = s.events ++ es ∧ u.sel = selAfter s.sel es

theorem EventsAdded.append {s u v : State} {es : List Event} (h : EventsAdded s u) (hevents : v.events = u.events ++ es)
    (hsel : v.sel = selAfter u.sel es) : EventsAdded s v := by
  obtain ⟨fs, hevents', hsel'⟩ := h
  exact ⟨fs ++ es, by rw [hevents, hevents', List.append_assoc], by rw [hsel, hsel', selAfter_append]⟩

theorem keptByUpdates_eventsAdded (s : State) : KeptByUpdates (EventsAdded s) where
  enter := fun _ _ h => h
  finish := fun _ _ h => h
  setSeq := fun _ _ h => h
  setCall := fun _ _ h => h
  setIo := fun _ _ h => h
  setMem := fun _ _ h => h
  select := fun _ _ h => h.append rfl rfl
  noteXfer := fun _ _ _ _ h => h.append rfl rfl
  report := fun _ _ h => h

/-- Settles O45: of the updates of a call only selects and answered transfers add events, and only selects move the line. -/
theorem eventsGrowAndSelectFollows : Obligations.EventsGrowAndSelectFollows :=
  fun _ s _ h => (keptByUpdates_eventsAdded s).exec_all (fun _ _ h => h) ⟨[], (List.append_nil _).symm, rfl⟩ h

/-- Host memory and the parameters are those of `s`. -/
def SameMem (s u : State) : Prop := u.mem = s.mem ∧ u.params = s.params

theorem readTransfers_go {cmd : Byte} {dst n k : Nat} {s u : State} (h : readTransfers cmd dst n k s = .go u) :
    u.call.raw.length = k := by
  cases h0 : s.xferAnswer 0 with
  | err e r =>
    obtain ⟨v, herr, -⟩ := readTransfers_command_err h0 cmd dst n k
    rw [herr] at h; cases h
  | never => rw [readTransfers_command_never h0] at h; cases h
  | ok r0 =>
  cases h1 : s.xferAnswer 1 with
  | err e r =>
    obtain ⟨v, herr, -⟩ := readTransfers_read_err h0 h1 cmd dst n k
    rw [herr] at h; cases h
  | never => rw [readTransfers_read_never h0 h1] at h; cases h
  | ok raw =>
    obtain ⟨v, got, hgo, -, hraw, hlen, -⟩ := readTransfers_ok h0 h1 cmd dst n k
    rw [hgo] at h; cases h
    exact hraw ▸ hlen

theorem o3ReadRaw_go {cmd : Byte} {dst n : Nat} {s u : State} (h : o3ReadRaw cmd dst n s = .go u) :
    u.call.raw.length = rawLength (isDcCmd s.params cmd) n := by
  rcases o3ReadCheck_cases cmd n s with hcheck | hcheck | hcheck | hcheck
  · cases ha : s.allocAnswer with
    | true => rw [o3ReadRaw_eq_readTransfers hcheck ha] at h; exact readTransfers_go h
    | false => rw [o3ReadRaw_of_allocAnswer_false hcheck ha] at h; cases h
  · rw [o3ReadRaw_of_o3ReadCheck_err hcheck] at h; cases h
  · rw [o3ReadRaw_of_o3ReadCheck_err hcheck] at h; cases h
  · rw [o3ReadRaw_of_o3ReadCheck_refuse hcheck] at h; cases h

/-- The work of a read up to its decode writes no host memory. -/
theorem readFlow_sameMem (cmd : Byte) (dst n : Nat) (inSpace : Bool) (s : State) :
    (readFlow cmd dst n inSpace s).All (SameMem s) :=
  readFlow_all (P := SameMem s) (fun _ _ _ _ h => h) (fun _ _ h => h) (fun _ _ h => h) (fun _ _ h => h)
    (fun _ _ h => h) cmd dst n inSpace ⟨rfl, rfl⟩

/-- What a read goes on with decodes to as many bytes as it asked for; its destination lies in the address space. -/
theorem readFlow_go {cmd : Byte} {dst n : Nat} {inSpace : Bool} {s u : State}
    (h : readFlow cmd dst n inSpace s = .go u) : inSpace = true ∧ (u.readOut cmd n).length = n := by
  have hsame := readFlow_sameMem cmd dst n inSpace s
  rw [h] at hsame
  obtain ⟨-, hparams⟩ := hsame
  unfold readFlow at h
  split_ifs at h with hp hin hc hv
  refine ⟨Bool.eq_true_of_not_eq_false hin, ?_⟩
  have hraw := o3ReadRaw_go h
  rw [State.readOut, hparams]
  cases hdc : isDcCmd s.params cmd with
  | true => exact length_dummyClockDecode _ _
  | false => exact hraw.trans (by rw [hdc]; rfl)

/-- READ_COMMAND stores in its destination only. -/
theorem readCommand_storedWithin {cmd : Byte} {s t : State} (h : exec (.readCommand cmd) s = .next t) :
    StoredWithin s.argAddr s.argLen s t := by
  have hall := readFlow_sameMem cmd s.argAddr s.argLen (s.fits s.argAddr s.argLen) (s.enter .check)
  rw [exec_readCommand, readCall, State.enter_argAddr, State.enter_argLen, State.enter_fits] at h
  cases hflow : readFlow cmd s.argAddr s.argLen (s.fits s.argAddr s.argLen) (s.enter .check) with
  | go u =>
    obtain ⟨hf, hlen⟩ := readFlow_go hflow
    rw [hflow] at h hall
    obtain ⟨hmem, -⟩ := hall
    cases h
    exact ⟨u.readOut cmd s.argLen, congrArg (fun m : Memory => m.writeBytes s.argAddr (u.readOut cmd s.argLen)) hmem, hlen.le,
      hlen.symm ▸ State.argAddr_add_le_of_fits hf⟩
  | err k u =>
    rw [hflow] at h hall
    obtain ⟨hmem, hparams⟩ := hall
    cases h
    exact StoredWithin.havoc hmem hparams _
  | refuse r u =>
    rw [hflow] at h hall
    obtain ⟨hmem, hparams⟩ := hall
    cases h
    exact StoredWithin.havoc hmem hparams _
  | hang => rw [hflow] at h; cases h

/-- A write call stores nothing. -/
theorem writeCall_close_mem {cmd : Byte} {s t : State} (h : (writeCall cmd s).close = .next t) : t.mem = s.mem := by
  have hall : (writeCall cmd s).All fun u => u.mem = s.mem :=
    writeCall_all (fun _ _ _ _ h => h) (fun _ _ h => h) (fun _ _ h => h) (fun _ _ h => h) (fun _ _ h => h) cmd rfl
  obtain ⟨u, r, hu, rfl⟩ := KeptByStages.close (P := fun _ u => u.mem = s.mem) (q := .done) hall h
  exact hu

/-- SEND_COMMAND stores only where it is a read. -/
theorem sendCommand_storedWithin {cmd : Byte} {s t : State} (h : exec (.sendCommand cmd) s = .next t) :
    StoredWithin s.argAddr (destLength (.sendCommand cmd) s) s t := by
  by_cases hp : s.phase = .ready
  · cases hc : s.classify cmd with
    | true =>
      rw [exec_sendCommand_read hp hc] at h
      rw [destLength, if_pos ⟨hp, hc⟩]
      exact readCommand_storedWithin h
    | false =>
      rw [exec_sendCommand_write hp hc] at h
      exact StoredWithin.of_mem_eq (writeCall_close_mem h) _
  · rw [exec_sendCommand_notReady hp] at h
    cases h
    exact StoredWithin.of_mem_eq (s := s) rfl _

/-- IS_DISPLAY_ON reads into PMBUF, not into host memory. -/
theorem isDisplayOn_mem {s t : State} (h : exec .isDisplayOn s = .next t) : t.mem = s.mem := by
  have hall : s.powerModeFlow.All (SameMem (s.enter .check)) := readFlow_sameMem _ 0 1 true (s.enter .check)
  cases hflow : s.powerModeFlow with
  | go u => rw [hflow] at hall; rw [exec_isDisplayOn_of_go hflow] at h; cases h; exact hall.1
  | err e u => rw [hflow] at hall; rw [exec_isDisplayOn_of_err hflow] at h; cases h; exact hall.1
  | refuse r u => rw [hflow] at hall; rw [exec_isDisplayOn_of_refuse hflow] at h; cases h; exact hall.1
  | hang => rw [exec_isDisplayOn_of_hang hflow] at h; cases h

/-- Every operation stores in its destination only, and nothing beyond the address space (R50, R57). -/
theorem exec_storedWithin {i : Instr} {s t : State} (h : exec i s = .next t) :
    StoredWithin s.argAddr (destLength i s) s t := by
  rcases instr_kinds i with hhost | ⟨plan, hplan⟩ | hformat | ⟨cmd, rfl⟩
  · cases i <;> simp only [isHostOp, Bool.false_eq_true] at hhost
    case configure =>
      rcases exec_configure_cases h with ⟨r, rfl⟩ | ⟨-, -, rfl⟩
      · exact StoredWithin.of_mem_eq (s := s) rfl _
      · exact StoredWithin.of_mem_eq (s := s) rfl _
    case sendCommand => exact sendCommand_storedWithin h
    case readCommand => exact readCommand_storedWithin h
    case isDisplayOn => exact StoredWithin.of_mem_eq (isDisplayOn_mem h) _
    case reservedOp => cases h; exact StoredWithin.of_mem_eq (s := s) rfl _
  · obtain ⟨u, r, es, rfl, hplayed, -⟩ := exec_leaf_ends hplan h
    exact StoredWithin.of_mem_eq (s := s) hplayed.kept.mem _
  · obtain ⟨u, r, rfl, -, hstored⟩ := exec_readFormat_ends hformat h
    exact hstored
  · cases h
    exact StoredWithin.of_mem_eq (s := s) rfl _

/-- Settles O42: what is stored stays within the destination, so every other byte reads as before. -/
theorem memoryChangesOnlyInDestination : Obligations.MemoryChangesOnlyInDestination :=
  fun _ _ _ hwf h => (exec_storedWithin h).memSameOutside hwf

end Sys2Proof.Machine
end

section
/-! PROOF. Steps (60_exceptions.md R283): what one step carries out, and the invariant that every step keeps. -/

namespace Sys2Proof.Machine

/-! What a step carries out. -/

theorem step_idle {s : State} (h : s.pending = []) : step s = .next s := by
  rw [step, h]

theorem step_of_decode {s : State} {r : Request} {rest : List Request} {i : Instr} (hs : s.pending = r :: rest)
    (hd : decode r.port r.bytes = .ok i) : step s = exec i (s.accept r rest) := by
  obtain ⟨hwf, -, -⟩ := encodeDecodeAgree _ _ _ hd
  simp only [step, hs, hd, hwf, if_true]

/-- A stream for the emulated encoder goes to it as it is (log 29). -/
theorem step_of_stream {s : State} {r : Request} {rest : List Request} {e : DecodeError} {c : Bool}
    (hs : s.pending = r :: rest) (hd : decode r.port r.bytes = .error e) (hport : streamControl r.port = some c) :
    step s = execE8Stream c r.bytes (s.accept r rest) := by
  simp only [step, hs, hd, hport]

/-- Bytes that decode to nothing at a port with rows are refused (log 17). -/
theorem step_of_noRow {s : State} {r : Request} {rest : List Request} {e : DecodeError}
    (hs : s.pending = r :: rest) (hd : decode r.port r.bytes = .error e) (hport : streamControl r.port = none) :
    step s = .refused .noSuchRow := by
  simp only [step, hs, hd, hport]

/-- A step that answers a next state waited, or carried out an operation or a stream in the state that took the request. -/
theorem step_next_cases {s t : State} (h : step s = .next t) :
    t = s ∨ ∃ r rest, (∃ i, exec i (s.accept r rest) = .next t) ∨
      ∃ c, execE8Stream c r.bytes (s.accept r rest) = .next t := by
  cases hs : s.pending with
  | nil => rw [step_idle hs] at h; cases h; exact .inl rfl
  | cons r rest =>
    refine .inr ⟨r, rest, ?_⟩
    cases hd : decode r.port r.bytes with
    | ok i => exact .inl ⟨i, (step_of_decode hs hd).symm.trans h⟩
    | error e =>
      cases hport : streamControl r.port with
      | some c => exact .inr ⟨c, (step_of_stream hs hd hport).symm.trans h⟩
      | none => rw [step_of_noRow hs hd hport] at h; cases h

/-- The port of a stream has no rows (log 29). -/
theorem decode_e8Stream (c : Bool) (bs : List Byte) : decode (.e8Stream c) bs = .error .wrongLength := rfl

/-- Settles O5: the four kinds of step, each with the state that took the request written out. -/
theorem stepRunsDecodedRequest : Obligations.StepRunsDecodedRequest := by
  refine ⟨fun s r rest i hs hd _ => step_of_decode hs hd, fun s r rest e hs hd hport => ?_,
    fun s r rest c hs hport => ?_, fun s => step_idle⟩
  · exact step_of_noRow hs hd hport
  · have hd : decode r.port r.bytes = .error .wrongLength := by rw [hport, decode_e8Stream]
    exact step_of_stream hs hd (by rw [hport]; rfl)

/-- Settles O11: CLASSIFY's one lookup, for a set and for none. -/
theorem classifyAnswersMembership : Obligations.ClassifyAnswersMembership := by
  intro cmd s
  have hanswer : s.classify cmd = if s.readsetValid then s.readsetMap.getLsbD cmd.toNat else false := by
    cases hvalid : s.readsetValid <;> simp [State.classify, setHas, hvalid]
  rw [← hanswer]
  rfl

/-! A direct call of the emulated encoder. -/

/-- What its updates keep, such a call keeps up to its end. -/
theorem execE8Stream_ends {P : State → Prop} (hx : ∀ s sp p r, P s → P (s.noteXfer sp p r))
    (hc : ∀ s c, P s → P (s.setCall c)) (hq : ∀ s q, P s → P (s.setSeq q)) (ha : ∀ s io, P s → P (s.setIo io))
    {c : Bool} {l : List Byte} {s t : State} (hs : P (s.enter .check)) (h : execE8Stream c l s = .next t) :
    ∃ u r, P u ∧ t = u.finish r := by
  have hentry : P (s.enter .check).sampleE8 := hc _ _ (ha _ _ hs)
  refine KeptByStages.close (P := fun _ => P) (q := .done) ?_ h
  refine Flow.All.andThen (P := P) ?_ (fun u hu => ?_) fun _ h => h
  · rcases e8Check_cases (Stream.ofBytes c l) (s.enter .check).sampleE8 with hcheck | hcheck | hcheck <;> rw [hcheck] <;>
      exact hentry
  · refine (State.allocate_all hc (ha _ _ (hq u _ hu))).andThen (fun v hv => ?_) fun _ h => h
    unfold e8Encode
    split
    · exact sendStream_all hx hc _ _ (hq v _ hv)
    · exact State.send_all hx hc (hq v _ hv) .default _ _

theorem execE8Stream_sameConfig {c : Bool} {l : List Byte} {s t : State} (h : execE8Stream c l s = .next t) :
    sameConfig s t := by
  obtain ⟨u, r, hu, rfl⟩ := execE8Stream_ends (P := sameConfig s) (fun _ _ _ _ h => h) (fun _ _ h => h)
    (fun _ _ h => h) (fun _ _ h => h) ⟨rfl, rfl, rfl, rfl, rfl⟩ h
  exact hu

theorem execE8Stream_mem {c : Bool} {l : List Byte} {s t : State} (h : execE8Stream c l s = .next t) :
    t.mem = s.mem := by
  obtain ⟨u, r, hu, rfl⟩ := execE8Stream_ends (P := fun u => u.mem = s.mem) (fun _ _ _ _ h => h) (fun _ _ h => h)
    (fun _ _ h => h) (fun _ _ h => h) rfl h
  exact hu

theorem execE8Stream_atRest {c : Bool} {l : List Byte} {s t : State} (h : execE8Stream c l s = .next t) : atRest t := by
  obtain ⟨u, r, -, rfl⟩ := execE8Stream_ends (P := fun _ => True) (fun _ _ _ _ h => h) (fun _ _ h => h)
    (fun _ _ h => h) (fun _ _ h => h) trivial h
  exact ⟨rfl, rfl⟩

/-! The configuration, once READY. -/

theorem exec_sameConfig_of_ready {i : Instr} {s t : State} (hp : s.phase = .ready) (h : exec i s = .next t) :
    sameConfig s t := by
  by_cases hi : i = .configure
  · subst hi
    rcases exec_configure_cases h with ⟨r, rfl⟩ | ⟨hun, -⟩
    · exact sameConfig_enter_finish s _ r
    · rw [hp] at hun; cases hun
  · exact exec_sameConfig hi h

/-- Settles O4: taking a request writes no configuration, CONFIGURE is refused, and nothing else writes it either. -/
theorem readyConfigurationIsPermanent : Obligations.ReadyConfigurationIsPermanent := by
  intro s t hp h
  rcases step_next_cases h with rfl | ⟨r, rest, ⟨i, hexec⟩ | ⟨c, hexec⟩⟩
  · exact ⟨rfl, rfl, rfl, rfl, rfl⟩
  · exact exec_sameConfig_of_ready (s := s.accept r rest) hp hexec
  · exact execE8Stream_sameConfig (s := s.accept r rest) hexec

/-! The invariant. -/

theorem State.Inv.accept {s : State} (h : s.Inv) (r : Request) (rest : List Request) : (s.accept r rest).Inv where
  memWf := hostStores_wf _ r.stores h.memWf
  memInSpace := hostStores_inSpace _ r.stores h.memInSpace
  seqIdle := h.seqIdle
  callIdle := h.callIdle
  phaseRests := h.phaseRests
  readSet := h.readSet

/-- A state at rest with legal memory and the configuration of one that meets the invariant meets it. -/
theorem State.Inv.of_sameConfig {s t : State} (h : s.Inv) (hconfig : sameConfig s t) (hwf : t.mem.wf = true)
    (hin : t.mem.inSpace s.params.addrW = true) (hrest : atRest t) : t.Inv := by
  obtain ⟨hparams, hphase, -, hvalid, hmap⟩ := hconfig
  obtain ⟨hseq, hcall⟩ := hrest
  refine ⟨hwf, hparams ▸ hin, hseq, hcall, hphase ▸ h.phaseRests, fun hp => ?_⟩
  have hlegal := h.readSet (hphase ▸ hp)
  rwa [State.readSetLegal, ← hvalid, ← hmap, ← hparams] at hlegal

/-- The read set CONFIGURE writes is legal (R23, R230). -/
theorem readSetLegal_configureWith {s : State} {a : Args} (h : badReadSet s.params a.readset = false) :
    (s.configureWith a).readSetLegal := by
  rw [State.readSetLegal, State.configureWith_readsetValid, State.configureWith_readsetMap, State.configureWith_params]
  cases hset : a.readset with
  | none => exact ⟨fun _ => rfl, by decide, by simp [setHas]⟩
  | some m =>
    rw [hset, badReadSet, Bool.or_eq_false_iff, decide_eq_false_iff_not, Nat.not_lt] at h
    obtain ⟨hcard, hsentinel⟩ := h
    exact ⟨fun hvalid => absurd hvalid (by simp), hcard, hsentinel⟩

/-- Operations leave SEQ and the per-call state at rest, where they were so. -/
theorem exec_atRest {i : Instr} {s t : State} (hs : atRest s) (h : exec i s = .next t) : atRest t := by
  obtain ⟨-, hrest, hclassify⟩ := operationsEndAtRest i s t h
  by_cases hi : ∃ cmd, i = .classify cmd
  · obtain ⟨hseq, hcall⟩ := hclassify hi
    exact ⟨hseq.trans hs.1, hcall.trans hs.2⟩
  · exact hrest fun cmd hcmd => hi ⟨cmd, hcmd⟩

theorem exec_inv {i : Instr} {s t : State} (hs : s.Inv) (h : exec i s = .next t) : t.Inv := by
  have hstored := exec_storedWithin h
  have hwf := hstored.wf hs.memWf
  have hin := hstored.inSpace hs.memInSpace
  have hrest := exec_atRest ⟨hs.seqIdle, hs.callIdle⟩ h
  by_cases hi : i = .configure
  · subst hi
    rcases exec_configure_cases h with ⟨r, rfl⟩ | ⟨-, hset, rfl⟩
    · exact hs.of_sameConfig (sameConfig_enter_finish s _ r) hwf hin hrest
    · exact ⟨hwf, hin, rfl, rfl, by simp, fun _ => readSetLegal_configureWith (s := s.enter .check) hset⟩
  · exact hs.of_sameConfig (exec_sameConfig hi h) hwf hin hrest

theorem execE8Stream_inv {c : Bool} {l : List Byte} {s t : State} (hs : s.Inv) (h : execE8Stream c l s = .next t) :
    t.Inv := by
  have hmem := execE8Stream_mem h
  exact hs.of_sameConfig (execE8Stream_sameConfig h) (hmem ▸ hs.memWf) (hmem ▸ hs.memInSpace) (execE8Stream_atRest h)

/-- Settles O3: taking a request keeps the invariant, and so does whatever the request is. -/
theorem stepKeepsInvariant : Obligations.StepKeepsInvariant := by
  intro s t hs h
  rcases step_next_cases h with rfl | ⟨r, rest, ⟨i, hexec⟩ | ⟨c, hexec⟩⟩
  · exact hs
  · exact exec_inv (hs.accept r rest) hexec
  · exact execE8Stream_inv (hs.accept r rest) hexec

/-! Reset. -/

/-- Settles O1: the four fields as `State.reset` has them. -/
theorem resetIsUnconfiguredAndIdle : Obligations.ResetIsUnconfiguredAndIdle := ⟨rfl, rfl, rfl, rfl⟩

/-- Settles O2: an empty memory, a block at rest, and a phase in which no read set is asked about. -/
theorem resetMeetsInvariant : Obligations.ResetMeetsInvariant where
  memWf := rfl
  memInSpace := rfl
  seqIdle := rfl
  callIdle := rfl
  phaseRests := nofun
  readSet := nofun

end Sys2Proof.Machine
end
